-- ==== Sys2Proof/Word.lean ====
section
/-! DEFINITION. The word types of the FP3120: what the manual treats as bits, and the numbered things of the part. -/

namespace Sys2Proof

/-- One byte of a frame, of a layout or of the configuration image. -/
abbrev Byte := BitVec 8

/-- A link address: 0 the platform controller, 1 to 62 the agents, 63 the part itself (section 10.1). -/
abbrev Addr := BitVec 6

/-- A tag pairs a request with its answer; the tag counter wraps from 15 to 0 (R51). -/
abbrev Tag := BitVec 4

/-- An 8-bit time code (R38). -/
abbrev TimeCode := BitVec 8

/-- Domains D0 to D11 (section 1.4). -/
abbrev Domain := Fin 12

/-- Wake sources 0 to 15 (section 5.1). -/
abbrev Source := Fin 16

/-- Enable outputs EN0 to EN15. -/
abbrev EnLine := Fin 16

/-- Power-good inputs PG0 to PG15. -/
abbrev PgLine := Fin 16

/-- Wake lines WL0 to WL7. -/
abbrev WakeLine := Fin 8

/-- A set of wake sources, coded as R173 codes it: bit n names source n. -/
abbrev SourceSet := BitVec 16

/-- A set of domains: bit n names domain n (R173). -/
abbrev DomainSet := BitVec 12

/-- The levels of sixteen lines: bit n is 1 for HIGH or ASSERTED (section 10.10). -/
abbrev Levels := BitVec 16

/-- The two ports of the part (chapter 10). -/
inductive PortId where
  | upstream
  | downstream
  deriving DecidableEq, Repr

end Sys2Proof
end

