-- ==== Sys2Proof/Syntax.lean ====
section
/-! DEFINITION. The commands of the FP3120: one constructor for each row of spec/opcode_table.json, in the table's order.

A row that a frame causes carries no operand of its own: the frame stands in the port's input FIFO, put there by
`frameReceived`, and the command is the event at which the block takes it (R162). A row that time or a pin causes
names which timer, line or level it is about. -/

namespace Sys2Proof

/-- The commands. `position` is the plan position (R22) of the running member whose step timer expires. -/
inductive Instr where
  /-- POWER_ON_RESET (R174). -/
  | powerOnReset
  /-- MAINS_LOSS (R85). -/
  | mainsLoss
  /-- MAINS_RETURN (R87). -/
  | mainsReturn
  /-- FRAME_RECEIVED (R161): the bytes after the start delimiter, the two CRC bytes among them;
  `readyAtStart` says whether the port held ready asserted when the frame began. -/
  | frameReceived (port : PortId) (readyAtStart : Bool) (bytes : List Byte)
  /-- UPSTREAM_ROUTING_DISCARD (R163). -/
  | upstreamRoutingDiscard
  /-- DOWNSTREAM_ROUTING_DISCARD (R164). -/
  | downstreamRoutingDiscard
  /-- LINK_DOWN_INPUT_DISCARD (R20). -/
  | linkDownInputDiscard
  /-- OUTPUT_ARBITER_FILL (R165). -/
  | outputArbiterFill (port : PortId)
  /-- GO (R41). -/
  | go
  /-- SET_STEP_STORE (R26). -/
  | setStepStore
  /-- SET_SEQUENCE_DIRECTORY (R23). -/
  | setSequenceDirectory
  /-- SET_DOMAIN_CONFIGURATION (R13). -/
  | setDomainConfiguration
  /-- SET_AGENT_MAP (R18). -/
  | setAgentMap
  /-- SET_WAKE_MATCH_TABLE (R126). -/
  | setWakeMatchTable
  /-- SET_WAKE_SETTINGS (R96). -/
  | setWakeSettings
  /-- SET_LINE_QUALIFIERS (R115). -/
  | setLineQualifiers
  /-- SET_BUTTON_SETTINGS (R117). -/
  | setButtonSettings
  /-- SET_WAKE_TIMER (R121). -/
  | setWakeTimer
  /-- SET_SAFE_LEVELS (R83). -/
  | setSafeLevels
  /-- SET_RETAINED_RESUME_AREA (R172). -/
  | setRetainedResumeArea
  /-- REINIT (R171). -/
  | reinit
  /-- GET_STEP_STORE (R25). -/
  | getStepStore
  /-- GET_SEQUENCE_DIRECTORY (R22). -/
  | getSequenceDirectory
  /-- GET_DOMAIN_CONFIGURATION (R167). -/
  | getDomainConfiguration
  /-- GET_DOMAIN_STATUS (R167). -/
  | getDomainStatus
  /-- GET_AGENT_MAP (R18). -/
  | getAgentMap
  /-- GET_WAKE_MATCH_TABLE (R127). -/
  | getWakeMatchTable
  /-- GET_WAKE_SETTINGS (R167). -/
  | getWakeSettings
  /-- GET_WAKE_STATUS (R110). -/
  | getWakeStatus
  /-- GET_STORM_COUNTS (R110). -/
  | getStormCounts
  /-- GET_WAKE_CONTEXT (R104). -/
  | getWakeContext
  /-- GET_LINE_QUALIFIERS (R111). -/
  | getLineQualifiers
  /-- GET_BUTTON_SETTINGS (R116). -/
  | getButtonSettings
  /-- GET_WAKE_TIMER (R123). -/
  | getWakeTimer
  /-- GET_SAFE_LEVELS (R83). -/
  | getSafeLevels
  /-- GET_ENGINE_STATE (R167). -/
  | getEngineState
  /-- GET_LAST_REPORT (R67). -/
  | getLastReport
  /-- GET_HOLD_QUEUE (R150). -/
  | getHoldQueue
  /-- GET_POWER_GOOD_LEVELS (R151). -/
  | getPowerGoodLevels
  /-- GET_COUNTERS (R170). -/
  | getCounters
  /-- GET_RETAINED_RESUME_AREA (R172). -/
  | getRetainedResumeArea
  /-- GET_LOADER_STATUS (R177). -/
  | getLoaderStatus
  /-- CLEAR_WAKE_LATCH (R94). -/
  | clearWakeLatch
  /-- CLEAR_SUPPRESSED (R109). -/
  | clearSuppressed
  /-- CLEAR_RAIL_FAULTS (R157). -/
  | clearRailFaults
  /-- CLEAR_COUNTERS (R170). -/
  | clearCounters
  /-- MANAGEMENT_REQUEST_BAD_SELECTOR (R166). -/
  | managementRequestBadSelector
  /-- DOWNSTREAM_TRAFFIC (R139). -/
  | downstreamTraffic
  /-- UPSTREAM_ANSWER (R142). -/
  | upstreamAnswer
  /-- MATCHER_TAKE_MESSAGE (R124). -/
  | matcherTakeMessage
  /-- ORDER_DONE (R52). -/
  | orderDone
  /-- ORDER_TIMEOUT (R53). -/
  | orderTimeout (position : Nat)
  /-- AWAIT_GOOD_TIMEOUT (R56). -/
  | awaitGoodTimeout (position : Nat)
  /-- LINE_SETTLE_EXPIRY (R55). -/
  | lineSettleExpiry (position : Nat)
  /-- DELAY_EXPIRY (R55). -/
  | delayExpiry (position : Nat)
  /-- UNDO_ORDER_TIMEOUT (R74). -/
  | undoOrderTimeout
  /-- UNDO_LINE_SETTLE_EXPIRY (R75). -/
  | undoLineSettleExpiry
  /-- POWER_GOOD_CHANGE (R151): the deglitched level of `line` becomes `asserted`. -/
  | powerGoodChange (line : PgLine) (asserted : Bool)
  /-- BLANKING_EXPIRY (R158). -/
  | blankingExpiry (domain : Domain)
  /-- LINE_FILTERED_CHANGE (R112): the filtered level of `line` becomes `high`. -/
  | lineFilteredChange (line : WakeLine) (high : Bool)
  /-- BUTTON_PRESS (R116). -/
  | buttonPress
  /-- BUTTON_RELEASE (R116). -/
  | buttonRelease
  /-- PRESS_TIMER_EXPIRY (R117). -/
  | pressTimerExpiry
  /-- OVERRIDE_TIMER_EXPIRY (R118). -/
  | overrideTimerExpiry
  /-- SECONDS_STEP (R120). -/
  | secondsStep
  /-- WAKE_TIMER_EXPIRY (R122). -/
  | wakeTimerExpiry
  /-- STORM_WINDOW_EXPIRY (R106). -/
  | stormWindowExpiry
  /-- IMAGE_HEADER_READ (R175): the first five bytes of the image. -/
  | imageHeaderRead (b0 b1 b2 b3 b4 : Byte)
  /-- IMAGE_READ_COMPLETE (R175): the image's bytes after the first five. -/
  | imageReadComplete (bytes : List Byte)
  /-- LOADER_RECORD_APPLY (R176). -/
  | loaderRecordApply
  /-- START_DELIMITER_BEFORE_FRAME_END (R161). -/
  | startDelimiterBeforeFrameEnd (port : PortId)
  deriving DecidableEq, Repr

end Sys2Proof
end

