-- ==== Sys2Proof/Config.lean ====
section
/-! DEFINITION. What the manual leaves open: the levels the world puts on the part's pins, and the free values.
None of them has a body, so nothing can be proved of a value it takes; the draw counter of State is the argument that
makes each use a fresh one. -/

namespace Sys2Proof

/-- The input pins of section 10.12 as one edge of the slow clock samples them: wake lines, power-good lines, power
button (true: pressed), ACOK (true: high), and the ready signals of the receivers at the far ends of the two links. -/
structure Pins where
  wakeLines       : BitVec 8
  powerGood       : Levels
  button          : Bool
  acok            : Bool
  upstreamReady   : Bool
  downstreamReady : Bool
  deriving DecidableEq, Repr, Inhabited

/-- The levels on the input pins at the edge that makes draw n: the world sets them. Log entry 2. -/
opaque Config.pins : Nat → Pins

/-- Which of several events that are due at one moment is taken first: the manual gives no order. Log entry 3. -/
opaque Config.eventChoice : Nat → Nat

/-- The bytes of a record that is absent, behind a "present" byte of 0 (selectors 0x0A and 0x10). Log entry 4. -/
opaque Config.absentByte : Nat → Byte

/-- The byte in which GET of the Hold Queue packs a record's direction (true: UP), its releasable mark and its kind
code: section 10.5.2 names the three and gives their bits no places. Log entry 5. -/
opaque Config.holdRecordByte : Bool → Bool → Byte → Byte

/-- Whether a SET of a Line Qualifier that carries the filter code already held counts as one that "writes only the
mode" (R112). Log entry 6. -/
opaque Config.sameFilterCodeKeepsQualification : Bool

end Sys2Proof
end

