-- ==== Sys2Proof/Machine/State.lean ====
section
/-! DEFINITION. The state of the FP3120, block by block (Introduction, section 4), and the state right after power-on
reset. Every field is plain data. -/

namespace Sys2Proof.Machine

/-! ## Domain states and records (chapter 1) -/

/-- A domain's recorded state (R12). -/
inductive DomState where
  | on | idle | retain | off | unknown
  deriving DecidableEq, Repr

/-- The four ordered states that ORDER and ORDER-DONE carry (R12). -/
inductive OrdState where
  | on | idle | retain | off
  deriving DecidableEq, Repr

/-- The fault field of a status record (section 1.5, R153). -/
inductive RailFault where
  | noFault | latched | qualifying
  deriving DecidableEq, Repr

/-- The last fault causes (section 1.5); the absent cause is `none` of the option that holds one. -/
inductive FaultCause where
  | pgLost | stepTimeout | stateMismatch | noAgent | noLine
  deriving DecidableEq, Repr

/-- What a latched rail fault does (section 1.4). -/
inductive FaultPolicy where
  | report | shutdown
  deriving DecidableEq, Repr

/-- A domain configuration record (section 1.4). The controller flag is held by exactly one domain at all times (R14),
so it stands once, in `DomainTable.controller`. Monitored OFF cannot be held (R13), so it has no field. -/
structure DomainConfig where
  agent     : Option Addr
  pgLine    : Option PgLine
  monOn     : Bool
  monIdle   : Bool
  monRetain : Bool
  policy    : FaultPolicy
  required  : Bool
  blanking  : TimeCode
  deriving DecidableEq, Repr

/-- The empty configuration record (R13). -/
def DomainConfig.empty : DomainConfig :=
  ⟨none, none, false, false, false, .report, false, 0x00#8⟩

/-- A domain status record (section 1.5), with the domain's blanking timer (R157): `some n` counts n more ticks. -/
structure DomainStatus where
  recorded  : DomState
  fault     : RailFault
  lastCause : Option FaultCause
  blanking  : Option Nat
  deriving DecidableEq, Repr

/-- The status record after power-on reset (R15). -/
def DomainStatus.initial : DomainStatus :=
  ⟨.off, .noFault, none, none⟩

/-- The Domain Table, the Agent Map (entry a − 1 for agent a, R18) and the upstream link state (`true`: UP, R19). -/
structure DomainTable where
  config     : Vector DomainConfig 12
  status     : Vector DomainStatus 12
  controller : Domain
  agentMap   : Vector (Option Domain) 62
  linkUp     : Bool
  deriving DecidableEq, Repr

/-! ## Sequence tables (chapter 2) -/

/-- A directory entry (section 2.1). -/
structure DirEntry where
  first  : Nat
  count  : Nat
  commit : Nat
  deriving DecidableEq, Repr

/-- The entry after power-on reset (R22). -/
def DirEntry.empty : DirEntry := ⟨0, 0, 0⟩

/-- The action of a step with the fields that action uses (R27, R28). A domain of LINE or DELAY comes with its state on
completion, so a record whose state on completion is present and whose domain is NONE cannot be written (R29); only
ORDER and LINE have a reversible flag. -/
inductive Action where
  | order (domain : Domain) (target : OrdState) (reversible : Bool)
  | line (domain : Option (Domain × Option OrdState)) (line : EnLine) (high : Bool) (reversible : Bool)
  | awaitGood (domain : Domain) (asserted : Bool) (done : Option OrdState)
  | delay (domain : Option (Domain × Option OrdState))
  deriving DecidableEq, Repr

/-- The failure policy of a step (R30). -/
inductive FailPolicy where
  | abort | continue
  deriving DecidableEq, Repr

/-- A guard (R32). -/
inductive Guard where
  | always
  | armed (source : Source)
  | notArmed (source : Source)
  | reason (source : Source)
  | notReason (source : Source)
  deriving DecidableEq, Repr

/-- A step record (section 2.2). -/
structure StepRecord where
  action : Action
  join   : Bool
  code   : TimeCode
  policy : FailPolicy
  guard  : Guard
  deriving DecidableEq, Repr

/-- The empty step (R25). -/
def StepRecord.empty : StepRecord :=
  ⟨.delay none, false, 0x00#8, .continue, .always⟩

/-! ## The Transition Engine (chapters 3 and 4) -/

/-- The sleep states, in the order of the platform state list (R1). -/
inductive Sleep where
  | standby | hibernate | softoff
  deriving DecidableEq, Repr

/-- The platform state (R1); `rest f` is STANDBY, HIBERNATE or SOFTOFF. -/
inductive Platform where
  | working
  | rest (f : Sleep)
  | entering (t : Sleep)
  | unwinding (t : Sleep)
  | waking (f : Sleep)
  | forcing
  deriving DecidableEq, Repr

/-- A step of a sequence: its Step Store index, its position in the range, and the record as read at the start (R44). -/
structure PlanStep where
  index    : Nat
  position : Nat
  step     : StepRecord
  deriving DecidableEq, Repr

/-- The Plan (R44): its steps in position order, how many of them have been started, and the commit point of the
directory entry as read at the start. Group boundaries lie after each step whose join is 0 (R34). -/
structure Plan where
  steps   : List PlanStep
  started : Nat
  commit  : Nat
  deriving DecidableEq, Repr

/-- A running member of the group in flight (R47) with what its start captured (R55, R57) and its step timer (R49):
`none` is no timer, `some n` counts n more ticks. -/
structure Member where
  plan       : PlanStep
  priorState : DomState
  priorLevel : Bool
  timer      : Option Nat
  deriving DecidableEq, Repr

/-- An entry of the Outstanding Order Table (R50). `position` is the position of the member that made it and `none` for
an undo (R73); the entry's timer is that member's. -/
structure OrderEntry where
  domain   : Domain
  agent    : Addr
  tag      : Tag
  target   : OrdState
  position : Option Nat
  deriving DecidableEq, Repr

/-- What an undo record restores (section 4.2): the domain and state of an ORDER, or the domain and state, if a domain was
named, the line and the level of a LINE. -/
inductive UndoAction where
  | order (domain : Domain) (prior : DomState)
  | line (domain : Option (Domain × DomState)) (line : EnLine) (priorHigh : Bool)
  deriving DecidableEq, Repr

/-- An undo record (section 4.2). -/
structure UndoRecord where
  index  : Nat
  action : UndoAction
  code   : TimeCode
  deriving DecidableEq, Repr

/-- The undo in flight: the popped record and its step timer (R73, R75). -/
structure UndoRun where
  record : UndoRecord
  timer  : Option Nat
  deriving DecidableEq, Repr

/-- The outcomes of a REPORT (R66). -/
inductive ReportOutcome where
  | completed | aborted | forced | invalid
  deriving DecidableEq, Repr

/-- The causes of a REPORT (R66). -/
inductive ReportCause where
  | noCause | wake | stepTimeout | stateMismatch | noAgent | noLine | badSequence | override | railFault
  | resumeCheck | acLoss
  deriving DecidableEq, Repr

/-- A REPORT record (R66). -/
structure Report where
  sequence : Option Nat
  outcome  : ReportOutcome
  cause    : ReportCause
  failing  : Option Nat
  source   : Option Source
  unknown  : DomainSet
  deriving DecidableEq, Repr

/-- The forcing cause (R40). -/
structure ForcingCause where
  cause    : ReportCause
  sequence : Option Nat
  failing  : Option Nat
  deriving DecidableEq, Repr

/-- What the Engine keeps at the start of unwinding for the REPORT at its end (R60, R72). -/
structure UnwindInfo where
  cause   : ReportCause
  failing : Option Nat
  source  : Option Source
  deriving DecidableEq, Repr

/-- The Transition Engine's state (R1, R40, R71) with the tables it reads (chapter 2). The Undo Stack is listed top
first; the four step timers stand with the members and the undo they count for. -/
structure Engine where
  platform     : Platform
  directory    : Vector DirEntry 7
  store        : Vector StepRecord 128
  plan         : Option Plan
  running      : List Member
  orders       : List OrderEntry
  tag          : Tag
  rising       : DomainSet
  abortPending : Option Source
  forcingCause : Option ForcingCause
  undoStack    : List UndoRecord
  undo         : Option UndoRun
  unwind       : Option UnwindInfo
  lastReport   : Option Report
  deriving DecidableEq, Repr

/-! ## The Wake Unit (chapter 5) -/

/-- A wake reason (R103). -/
inductive WakeReason where
  | source (s : Source)
  | powerRestore
  deriving DecidableEq, Repr

/-- The Wake Context (R104). -/
structure WakeContext where
  fromState     : Sleep
  reason        : WakeReason
  latch         : SourceSet
  armed         : SourceSet
  sleepDuration : Nat
  deriving DecidableEq, Repr

/-- The Wake Unit's sets, the Wake Arm, the Wake Context and the Storm Monitor (chapter 5). Entry n of `stormCount` is
source n's; source 0's stays 0 (R107). -/
structure WakeUnit where
  latch         : SourceSet
  generation    : BitVec 16
  enable        : SourceSet
  maskStandby   : SourceSet
  maskHibernate : SourceSet
  maskSoftoff   : SourceSet
  suppressed    : SourceSet
  armed         : SourceSet
  arm           : Bool
  context       : Option WakeContext
  threshold     : Nat
  window        : TimeCode
  stormCount    : Vector Nat 16
  windowTimer   : Option Nat
  deriving DecidableEq, Repr

/-! ## Qualifiers, timers and filters (chapters 4, 6 and 9) -/

/-- The line modes (section 6.1). -/
inductive LineMode where
  | rise | fall | both | high | low | disabled
  deriving DecidableEq, Repr

/-- A Line Qualifier (section 6.1); `qualifying` is the qualification in progress and the edges it still needs (R112). -/
structure LineQualifier where
  mode       : LineMode
  filter     : TimeCode
  level      : Bool
  qualifying : Option Nat
  deriving DecidableEq, Repr

/-- A two-edge filter (R85, R116, R151): its level and at how many consecutive edges the input has shown the other one. -/
structure Filter2 where
  level : Bool
  seen  : Nat
  deriving DecidableEq, Repr

/-- The Button Qualifier (section 6.2); the level of `state` is true for PRESSED. -/
structure Button where
  pressMinimum  : TimeCode
  override      : TimeCode
  state         : Filter2
  latched       : Bool
  overridden    : Bool
  pressTimer    : Option Nat
  overrideTimer : Option Nat
  deriving DecidableEq, Repr

/-- The after-loss policy (R87). -/
inductive AfterLoss where
  | stayOff | powerOn
  deriving DecidableEq, Repr

/-- The Line, Button and mains qualifiers, the seconds divider, the Wake Timer and the sleep-duration counter (chapters 4
and 6). `secondsDue`: the divider has wrapped and the seconds step has not been taken yet. -/
structure Qualifiers where
  lines         : Vector LineQualifier 8
  button        : Button
  acok          : Filter2
  afterLoss     : AfterLoss
  divider       : Nat
  secondsDue    : Bool
  wakeTimer     : Nat
  sleepCount    : Nat
  sleepCounting : Bool
  deriving DecidableEq, Repr

/-- The Rail Monitor's deglitched power-good lines (R151); its fault fields and blanking timers stand in the status records. -/
structure RailMonitor where
  pg : Vector Filter2 16
  deriving DecidableEq, Repr

/-! ## The Message Matcher (chapter 7) -/

/-- The frame kinds, in the order of their codes (R173). -/
inductive Kind where
  | note | ask | answer | order | orderDone | alert | set | get | go | clear | result | event | report | resume
  deriving DecidableEq, Repr

/-- The actions of a match entry (section 7.2). -/
inductive MatchAction where
  | drop | keep | wake | wakeKeep
  deriving DecidableEq, Repr

/-- An entry of the Wake Match Table (section 7.2). `agent` and `kind` are `none` for ANY; `source` is the six bits
written, 0x3F for none, kept and not read under DROP and KEEP (R125). -/
structure MatchEntry where
  valid     : Bool
  agent     : Option Addr
  kind      : Option Kind
  fieldTest : Bool
  offset    : Fin 32
  msb       : Fin 32
  lsb       : Fin 32
  signed    : Bool
  low       : BitVec 32
  high      : BitVec 32
  outside   : Bool
  qualifier : Nat
  action    : MatchAction
  source    : BitVec 6
  run       : Nat
  deriving DecidableEq, Repr

/-- The empty entry (R125). -/
def MatchEntry.empty : MatchEntry :=
  ⟨false, none, none, false, 0, 31, 0, false, 0#32, 0#32, false, 1, .drop, 0x3F#6, 0⟩

/-- The Message Matcher's table (R125). -/
structure Matcher where
  table : Vector MatchEntry 24
  deriving DecidableEq, Repr

/-! ## Frames, ports, the Traffic Gate and the Hold Queue (chapters 8 and 10) -/

/-- A good frame: the header's fields and the payload, whose length is the length field (section 10.1). -/
structure Frame where
  dest    : Addr
  src     : Addr
  kind    : Kind
  tag     : Tag
  proxy   : Bool
  payload : List Byte
  deriving DecidableEq, Repr

/-- A Hold Queue record (section 8.4): the message whole, its direction (`up`: for the controller) and its mark. -/
structure HoldRecord where
  up         : Bool
  frame      : Frame
  releasable : Bool
  deriving DecidableEq, Repr

/-- The Traffic Gate (R138): the Hold Queue, oldest record first, and the UP release permit. -/
structure Gate where
  hold   : List HoldRecord
  permit : Bool
  deriving DecidableEq, Repr

/-- A link port (R162, R165): input FIFO, own-frame queue and output FIFO, each oldest first; the message the Gate
forwarded that waits at the output arbiter (R144); the frame the port has begun to send (R20); and, while a frame is being
received, whether the port held ready asserted when it began (R161). -/
structure Port where
  input     : List Frame
  own       : List Frame
  output    : List Frame
  forwarded : Option Frame
  sending   : Option Frame
  receiving : Option Bool
  deriving DecidableEq, Repr

/-- The port after power-on reset (R162, R165). -/
def Port.empty : Port := ⟨[], [], [], none, none, none⟩

/-! ## Line Driver, Management Unit and Configuration Loader (chapters 3, 10 and 11) -/

/-- The enable outputs and their safe levels (R55, R83). -/
structure LineDriver where
  levels : Levels
  safe   : Levels
  deriving DecidableEq, Repr

/-- The six event counters (R170). -/
structure Counters where
  frameErrorsUp   : Nat
  frameErrorsDown : Nat
  discarded       : Nat
  stray           : Nat
  late            : Nat
  holdOverflow    : Nat
  deriving DecidableEq, Repr

/-- The Retained Resume Area as a list of cells in canonical form: addresses strictly rising and below 64, no cell
holding 0, which is what an unlisted address reads as (R172: the area is zero after power-on reset). -/
abbrev Memory := List Host.Cell

/-- The Management Unit: the counters, the Retained Resume Area, and the tag of the REINIT being served (R166). -/
structure Management where
  counters : Counters
  retained : Memory
  serving  : Option Tag
  deriving DecidableEq, Repr

/-- The loader status (R177). -/
inductive LoaderStatus where
  | loaded | fallbackNoImage | fallbackCrc | fallbackRecord
  deriving DecidableEq, Repr

/-- How far a loading has come (R175, R176): the first five bytes are awaited; the rest of the image is awaited; the
records are being applied, with the part of the record area not yet applied. -/
inductive LoadPhase where
  | header
  | body (head : List Byte)
  | records (area : List Byte)
  deriving DecidableEq, Repr

/-- A loading in progress: whether a REINIT started it, its phase, whether a mains loss has been taken during it
(R181), and the forcing event deferred to its end (R11). -/
structure Loading where
  byReinit  : Bool
  phase     : LoadPhase
  mainsLost : Bool
  deferred  : Option ReportCause
  deriving DecidableEq, Repr

/-- The Configuration Loader. -/
structure Loader where
  loading : Option Loading
  status  : LoaderStatus
  deriving DecidableEq, Repr

/-! ## Faults and refusals -/

/-- No command of the FP3120 stops the part: the manual gives every event of the table an effect in every state, or
leaves the event with nothing to act on. There is therefore no fault to raise, which is safe. -/
inductive Fault where
  deriving DecidableEq, Repr

/-- Why a command is refused by the model itself. -/
inductive Refusal where
  /-- Raised by `exec` for a row that has no meaning yet: safe, since nothing is claimed of it. No row is left so. -/
  | notModelled (mnemonic : String)
  deriving DecidableEq, Repr

/-! ## The whole state -/

/-- The state of the part. `porEdges` counts the edges of the slow clock since power-on reset up to 2, for the filters
whose first level is read at the first or second edge (R85, R111). `draws` is the model's own field: how many free
values have been drawn. `pending` is the queue of waiting commands, first in, first out. -/
structure State where
  dom      : DomainTable
  eng      : Engine
  wake     : WakeUnit
  qual     : Qualifiers
  mon      : RailMonitor
  matcher  : Matcher
  gate     : Gate
  up       : Port
  down     : Port
  lines    : LineDriver
  mgmt     : Management
  ldr      : Loader
  pins     : Pins
  porEdges : Nat
  draws    : Nat
  pending  : List Instr
  deriving DecidableEq, Repr

/-! ### The blocks after power-on reset (R174) -/

/-- Chapter 1: section 1.10. -/
def DomainTable.initial : DomainTable where
  config := Vector.replicate 12 DomainConfig.empty
  status := Vector.replicate 12 DomainStatus.initial
  controller := 0
  agentMap := Vector.replicate 62 none
  linkUp := false

/-- R1, R22, R25, R40, R71. -/
def Engine.initial : Engine where
  platform := .rest .softoff
  directory := Vector.replicate 7 DirEntry.empty
  store := Vector.replicate 128 StepRecord.empty
  plan := none
  running := []
  orders := []
  tag := 0#4
  rising := 0#12
  abortPending := none
  forcingCause := none
  undoStack := []
  undo := none
  unwind := none
  lastReport := none

/-- Section 5.9: Wake Enable set {0}, the Wake Arm set, the Armed set empty until loading ends, threshold 1, window 0x00. -/
def WakeUnit.initial : WakeUnit where
  latch := 0#16
  generation := 0#16
  enable := 1#16
  maskStandby := 0#16
  maskHibernate := 0#16
  maskSoftoff := 0#16
  suppressed := 0#16
  armed := 0#16
  arm := true
  context := none
  threshold := 1
  window := 0x00#8
  stormCount := Vector.replicate 16 0
  windowTimer := none

/-- R111. The level before the first edge is not stated: LOW. DESIGN CHOICE, log entry 7. -/
def LineQualifier.initial : LineQualifier := ⟨.disabled, 0x00#8, false, none⟩

/-- R116. -/
def Button.initial : Button := ⟨0x49#8, 0xE8#8, ⟨false, 0⟩, false, false, none, none⟩

/-- Section 6.6 and R85, R87, R123. The filtered ACOK level before the second edge is not stated: DEASSERTED. DESIGN
CHOICE, log entry 7. -/
def Qualifiers.initial : Qualifiers where
  lines := Vector.replicate 8 LineQualifier.initial
  button := Button.initial
  acok := ⟨false, 0⟩
  afterLoss := .stayOff
  divider := 0
  secondsDue := false
  wakeTimer := 0
  sleepCount := 0
  sleepCounting := true

/-- R170, R172. -/
def Management.initial : Management := ⟨⟨0, 0, 0, 0, 0, 0⟩, [], none⟩

/-- R174: a loading starts at power-on reset, and the loader status is LOADED until the loading ends and sets it. -/
def Loader.initial : Loader := ⟨some ⟨false, .header, false, none⟩, .loaded⟩

/-- The input pins before the first edge samples them: all LOW. DESIGN CHOICE, log entry 7. -/
def initialPins : Pins := ⟨0#8, 0#16, false, false, false, false⟩

/-- The part right after power-on reset, with no command waiting (R174). -/
def State.reset : State where
  dom := DomainTable.initial
  eng := Engine.initial
  wake := WakeUnit.initial
  qual := Qualifiers.initial
  mon := ⟨Vector.replicate 16 ⟨false, 0⟩⟩
  matcher := ⟨Vector.replicate 24 MatchEntry.empty⟩
  gate := ⟨[], false⟩
  up := Port.empty
  down := Port.empty
  lines := ⟨0#16, 0#16⟩
  mgmt := Management.initial
  ldr := Loader.initial
  pins := initialPins
  porEdges := 0
  draws := 0
  pending := []

/-! ### One update for each block -/

/-- Replace the Domain Table. -/
def State.withDom (s : State) (x : DomainTable) : State := { s with dom := x }
/-- Replace the Transition Engine's state. -/
def State.withEng (s : State) (x : Engine) : State := { s with eng := x }
/-- Replace the Wake Unit's state. -/
def State.withWake (s : State) (x : WakeUnit) : State := { s with wake := x }
/-- Replace the qualifiers. -/
def State.withQual (s : State) (x : Qualifiers) : State := { s with qual := x }
/-- Replace the Rail Monitor's state. -/
def State.withMon (s : State) (x : RailMonitor) : State := { s with mon := x }
/-- Replace the Message Matcher's state. -/
def State.withMatcher (s : State) (x : Matcher) : State := { s with matcher := x }
/-- Replace the Traffic Gate's state. -/
def State.withGate (s : State) (x : Gate) : State := { s with gate := x }
/-- Replace the Upstream Port's state. -/
def State.withUp (s : State) (x : Port) : State := { s with up := x }
/-- Replace the Downstream Port's state. -/
def State.withDown (s : State) (x : Port) : State := { s with down := x }
/-- Replace the Line Driver's state. -/
def State.withLines (s : State) (x : LineDriver) : State := { s with lines := x }
/-- Replace the Management Unit's state. -/
def State.withMgmt (s : State) (x : Management) : State := { s with mgmt := x }
/-- Replace the Configuration Loader's state. -/
def State.withLdr (s : State) (x : Loader) : State := { s with ldr := x }
/-- Replace the sampled input pins. -/
def State.withPins (s : State) (x : Pins) : State := { s with pins := x }
/-- Replace the count of edges since power-on reset. -/
def State.withPorEdges (s : State) (x : Nat) : State := { s with porEdges := x }
/-- Replace the draw counter. -/
def State.withDraws (s : State) (x : Nat) : State := { s with draws := x }
/-- Replace the queue of waiting commands. -/
def State.withPending (s : State) (x : List Instr) : State := { s with pending := x }

end Sys2Proof.Machine
end

