-- ==== Sys2Proof/Machine/Basics.lean ====
section
/-! DEFINITION. Small operations everything else is written with: sets, durations and timers, byte order, the link CRC,
and the Retained Resume Area's cells. -/

namespace Sys2Proof.Machine

/-! ## Index lists -/

/-- D0 to D11, in index order. -/
def allDomains : List Domain := [0, 1, 2, 3, 4, 5, 6, 7, 8, 9, 10, 11]

/-- Sources 0 to 15, lowest first. -/
def allSources : List Source := [0, 1, 2, 3, 4, 5, 6, 7, 8, 9, 10, 11, 12, 13, 14, 15]

/-- WL0 to WL7. -/
def allWakeLines : List WakeLine := [0, 1, 2, 3, 4, 5, 6, 7]

/-- PG0 to PG15. -/
def allPgLines : List PgLine := [0, 1, 2, 3, 4, 5, 6, 7, 8, 9, 10, 11, 12, 13, 14, 15]

/-- Match entries 0 to 23. -/
def allEntries : List (Fin 24) :=
  [0, 1, 2, 3, 4, 5, 6, 7, 8, 9, 10, 11, 12, 13, 14, 15, 16, 17, 18, 19, 20, 21, 22, 23]

/-! ## Sets coded as bits (R173) -/

/-- Member i is in the set. -/
def hasBit {n : Nat} (x : BitVec n) (i : Fin n) : Bool := x.getLsbD i

/-- The set with member i. -/
def setBit {n : Nat} (x : BitVec n) (i : Fin n) : BitVec n := x ||| BitVec.twoPow n i

/-- The set without member i. -/
def clearBit {n : Nat} (x : BitVec n) (i : Fin n) : BitVec n := x &&& ~~~ BitVec.twoPow n i

/-- The set less the members of y. -/
def diff {n : Nat} (x y : BitVec n) : BitVec n := x &&& ~~~ y

/-- Line i driven to the level. -/
def putBit {n : Nat} (x : BitVec n) (i : Fin n) (level : Bool) : BitVec n :=
  if level then setBit x i else clearBit x i

/-- The set of the listed members that satisfy p. -/
def setOf {n : Nat} (l : List (Fin n)) (p : Fin n → Bool) : BitVec n :=
  l.foldl (fun acc i => if p i then setBit acc i else acc) 0#n

/-- The lowest-numbered source of a set (R103). -/
def lowest (x : SourceSet) : Option Source := allSources.find? (hasBit x)

/-! ## Time codes and timers (R38, R39) -/

/-- The duration of a time code in ticks: n × 4^e for c = 32 × e + n (R38). -/
def ticks (c : TimeCode) : Nat := (c.toNat % 32) * 4 ^ (c.toNat / 32)

/-- The timer that a duration starts; a duration of 0 starts none (R39). -/
def startTimer (d : Nat) : Option Nat := if d = 0 then none else some d

/-- One edge of the slow clock at a timer. -/
def tickTimer : Option Nat → Option Nat
  | none => none
  | some n => some (n - 1)

/-! ## Bytes, high byte first (R173) -/

/-- A number's low eight bits as a byte. -/
def byteOf (n : Nat) : Byte := BitVec.ofNat 8 n

/-- A flag as a byte. DEDUCED, log entry 8. -/
def byteOfBool (b : Bool) : Byte := if b then 1#8 else 0#8

/-- An optional byte field: absent reads 0xFF (R173). -/
def optByte : Option Nat → Byte
  | none => 0xFF#8
  | some n => byteOf n

/-- Two bytes of a 16-bit value. -/
def bytes16 (x : BitVec 16) : List Byte := [x.extractLsb' 8 8, x.extractLsb' 0 8]

/-- Two bytes of a set of domains. -/
def bytes12 (x : DomainSet) : List Byte := bytes16 (x.setWidth 16)

/-- Three bytes of a count. -/
def bytes24 (n : Nat) : List Byte := [byteOf (n / 65536), byteOf (n / 256), byteOf n]

/-- Four bytes of a 32-bit value. -/
def bytes32 (x : BitVec 32) : List Byte :=
  [x.extractLsb' 24 8, x.extractLsb' 16 8, x.extractLsb' 8 8, x.extractLsb' 0 8]

/-- The 16-bit value of two bytes. -/
def word16 (a b : Byte) : BitVec 16 := a ++ b

/-- The 32-bit value of four bytes. -/
def word32 (a b c d : Byte) : BitVec 32 := a ++ b ++ c ++ d

/-- Bit i of a byte. -/
def bit (b : Byte) (i : Nat) : Bool := b.getLsbD i

/-! ## The link CRC (R161) -/

/-- One bit, most significant first, through the polynomial 0x1021. -/
def crcBit (crc : BitVec 16) (b : Bool) : BitVec 16 :=
  if crc.msb != b then (crc <<< 1) ^^^ 0x1021#16 else crc <<< 1

/-- One byte, most significant bit first. -/
def crcByte (crc : BitVec 16) (b : Byte) : BitVec 16 :=
  [7, 6, 5, 4, 3, 2, 1, 0].foldl (fun c i => crcBit c (bit b i)) crc

/-- The CRC over bytes: initial value 0xFFFF, no final inversion. -/
def crc16 (bytes : List Byte) : BitVec 16 := bytes.foldl crcByte 0xFFFF#16

/-! ## Lists of items -/

/-- n items of `size` bytes each. -/
def chunks (size : Nat) : Nat → List Byte → List (List Byte)
  | 0, _ => []
  | n + 1, data => data.take size :: chunks size n (data.drop size)

/-- Decode every item, or none if one cannot be decoded: a SET is checked whole (R166). -/
def decodeAll {α : Type} (f : List Byte → Option α) : List (List Byte) → Option (List α)
  | [] => some []
  | x :: xs =>
    match f x, decodeAll f xs with
    | some a, some as => some (a :: as)
    | _, _ => none

/-- Write items at consecutive indices from `first`. -/
def writeFrom {α : Type} {n : Nat} (v : Vector α n) (first : Nat) : List α → Vector α n
  | [] => v
  | x :: xs => writeFrom (v.setIfInBounds first x) (first + 1) xs

/-- `count` items from `first`. -/
def readFrom {α : Type} {n : Nat} (v : Vector α n) (first count : Nat) : List α :=
  (v.toList.drop first).take count

/-! ## The Retained Resume Area (R172) -/

/-- The byte at an address: an address that no cell lists reads as 0. -/
def Memory.read (m : Memory) (a : Nat) : Byte :=
  match m with
  | [] => 0#8
  | (k, v) :: rest => if k = a then v else Memory.read rest a

/-- The cells with the byte at an address written: a byte of 0 is not listed. -/
def Memory.write (m : Memory) (a : Nat) (b : Byte) : Memory :=
  match m with
  | [] => if b = 0#8 then [] else [(a, b)]
  | (k, v) :: rest =>
    if k < a then (k, v) :: Memory.write rest a b
    else if k = a then (if b = 0#8 then rest else (a, b) :: rest)
    else (if b = 0#8 then (k, v) :: rest else (a, b) :: (k, v) :: rest)

/-- The canonical form from a lower bound on: addresses strictly rising and below 64, no cell holding 0. -/
def Memory.wfFrom (low : Nat) : Memory → Bool
  | [] => true
  | (k, v) :: rest => decide (low ≤ k ∧ k < 64 ∧ v ≠ 0#8) && Memory.wfFrom (k + 1) rest

/-- The canonical form of the Retained Resume Area. -/
def Memory.wf (m : Memory) : Bool := Memory.wfFrom 0 m

/-- Write bytes from a pointer that wraps from 63 to 0 (R172). -/
def Memory.writeBytes (m : Memory) (pointer : Nat) : List Byte → Memory
  | [] => m
  | b :: bs => Memory.writeBytes (Memory.write m pointer b) ((pointer + 1) % 64) bs

/-- Read bytes from a pointer that wraps from 63 to 0 (R172). -/
def Memory.readBytes (m : Memory) (pointer : Nat) : Nat → List Byte
  | 0 => []
  | n + 1 => Memory.read m pointer :: Memory.readBytes m ((pointer + 1) % 64) n

end Sys2Proof.Machine
end

