-- ==== Sys2Proof/Machine/Operands.lean ====
section
/-! DEFINITION. The byte forms of section 10.10: codes of enumerated values, the frame, the layouts of the records a
SET carries and a GET returns, and the requests' index and count. -/

namespace Sys2Proof.Machine

/-! ## Codes: the position in the manual's list (R173) -/

/-- Frame kinds, codes 0 to 13. -/
def Kind.code : Kind → Nat
  | .note => 0 | .ask => 1 | .answer => 2 | .order => 3 | .orderDone => 4 | .alert => 5 | .set => 6 | .get => 7
  | .go => 8 | .clear => 9 | .result => 10 | .event => 11 | .report => 12 | .resume => 13

/-- The kind of a code; 14 and 15 name none (R161). -/
def Kind.ofCode : Nat → Option Kind
  | 0 => some .note | 1 => some .ask | 2 => some .answer | 3 => some .order | 4 => some .orderDone | 5 => some .alert
  | 6 => some .set | 7 => some .get | 8 => some .go | 9 => some .clear | 10 => some .result | 11 => some .event
  | 12 => some .report | 13 => some .resume | _ => none

/-- Domain states: ON, IDLE, RETAIN, OFF, UNKNOWN. -/
def DomState.code : DomState → Nat
  | .on => 0 | .idle => 1 | .retain => 2 | .off => 3 | .unknown => 4

/-- The recorded state that an ordered state is. -/
def OrdState.toDom : OrdState → DomState
  | .on => .on | .idle => .idle | .retain => .retain | .off => .off

/-- The code of an ordered state. -/
def OrdState.code (x : OrdState) : Nat := x.toDom.code

/-- The ordered state of a byte. -/
def OrdState.ofByte (b : Byte) : Option OrdState :=
  match b.toNat with
  | 0 => some .on | 1 => some .idle | 2 => some .retain | 3 => some .off | _ => none

/-- STANDBY, HIBERNATE, SOFTOFF as 0, 1, 2: how a GO codes its target (R173), and the index of the entry sequence; the wake
sequence's is 3 more (section 2.1). -/
def Sleep.code : Sleep → Nat
  | .standby => 0 | .hibernate => 1 | .softoff => 2

/-- GO's target of a byte. -/
def Sleep.ofByte (b : Byte) : Option Sleep :=
  match b.toNat with
  | 0 => some .standby | 1 => some .hibernate | 2 => some .softoff | _ => none

/-- Platform states: WORKING, STANDBY, HIBERNATE, SOFTOFF, ENTERING, UNWINDING, WAKING, FORCING. -/
def Platform.code : Platform → Nat
  | .working => 0 | .rest .standby => 1 | .rest .hibernate => 2 | .rest .softoff => 3
  | .entering _ => 4 | .unwinding _ => 5 | .waking _ => 6 | .forcing => 7

/-- A sleep state as a platform state: STANDBY 1, HIBERNATE 2, SOFTOFF 3. R173 lists the platform states and fixes 0, 1, 2
for a GO's target alone, so a from-state and the parameter of a platform state are coded by the list. DEDUCED, log
entry 22. -/
def Sleep.stateCode (f : Sleep) : Nat := (Platform.rest f).code

/-- The parameter of a transitional state (R1). -/
def Platform.parameter : Platform → Option Sleep
  | .entering t | .unwinding t | .waking t => some t
  | .working | .rest _ | .forcing => none

/-- The fault field: NONE, LATCHED, QUALIFYING. -/
def RailFault.code : RailFault → Nat
  | .noFault => 0 | .latched => 1 | .qualifying => 2

/-- The last fault cause: absent 0, PG-LOST 1, and on. -/
def lastCauseCode : Option FaultCause → Nat
  | none => 0 | some .pgLost => 1 | some .stepTimeout => 2 | some .stateMismatch => 3 | some .noAgent => 4
  | some .noLine => 5

/-- REPORT outcomes (R66). -/
def ReportOutcome.code : ReportOutcome → Nat
  | .completed => 0 | .aborted => 1 | .forced => 2 | .invalid => 3

/-- REPORT causes (R66). -/
def ReportCause.code : ReportCause → Nat
  | .noCause => 0 | .wake => 1 | .stepTimeout => 2 | .stateMismatch => 3 | .noAgent => 4 | .noLine => 5
  | .badSequence => 6 | .override => 7 | .railFault => 8 | .resumeCheck => 9 | .acLoss => 10

/-- A wake reason: the source number, or 0xFE for POWER-RESTORE. -/
def WakeReason.code : WakeReason → Byte
  | .source s => byteOf s.val
  | .powerRestore => 0xFE#8

/-- Result codes. -/
inductive ResultCode where
  | ok | busy | badSelect | badEntry | badKind | noSequence | badSequence | stale | wakePending | imageFailed
  deriving DecidableEq, Repr

/-- OK, BUSY, BAD-SELECT, BAD-ENTRY, BAD-KIND, NO-SEQUENCE, BAD-SEQUENCE, STALE, WAKE-PENDING, IMAGE-FAILED. -/
def ResultCode.code : ResultCode → Byte
  | .ok => 0#8 | .busy => 1#8 | .badSelect => 2#8 | .badEntry => 3#8 | .badKind => 4#8 | .noSequence => 5#8
  | .badSequence => 6#8 | .stale => 7#8 | .wakePending => 8#8 | .imageFailed => 9#8

/-- Line modes. -/
def LineMode.code : LineMode → Nat
  | .rise => 0 | .fall => 1 | .both => 2 | .high => 3 | .low => 4 | .disabled => 5

/-- The line mode of a code; 6 and 7 name none. -/
def LineMode.ofCode : Nat → Option LineMode
  | 0 => some .rise | 1 => some .fall | 2 => some .both | 3 => some .high | 4 => some .low | 5 => some .disabled
  | _ => none

/-- STAY-OFF 0, POWER-ON 1. -/
def AfterLoss.code : AfterLoss → Byte
  | .stayOff => 0#8 | .powerOn => 1#8

/-- Loader status codes. -/
def LoaderStatus.code : LoaderStatus → Byte
  | .loaded => 0#8 | .fallbackNoImage => 1#8 | .fallbackCrc => 2#8 | .fallbackRecord => 3#8

/-! ## Frames (R161 and section 10.10) -/

/-- The port's judgement of the bytes after a start delimiter. -/
inductive FrameCheck where
  /-- The last CRC byte has not come. -/
  | incomplete
  /-- A frame error. -/
  | error
  /-- A good frame, unless it began while ready was deasserted. -/
  | good (f : Frame)
  deriving DecidableEq, Repr

/-- The length field: bits 5 to 0 of header byte 3. -/
def lengthField (b3 : Byte) : Nat := (b3.extractLsb' 0 6).toNat

/-- The must-be-zero bits: 2 to 0 of byte 2, 7 and 6 of byte 3. -/
def mustBeZero (b2 b3 : Byte) : Bool := b2.extractLsb' 0 3 == 0#3 && b3.extractLsb' 6 2 == 0#2

/-- Check the bytes of a frame. Bytes after the last CRC byte belong to no frame: a port starts receiving at a start
delimiter (R161). A length field above 32 is a frame error as soon as the 4 header bytes are there, also where fewer bytes than
announced have come; R161 does not say when that error is taken. DESIGN CHOICE, log entry 41. -/
def checkFrame : List Byte → FrameCheck
  | b0 :: b1 :: b2 :: b3 :: rest =>
    let len := lengthField b3
    if 32 < len then .error
    else if rest.length < len + 2 then .incomplete
    else
      let payload := rest.take len
      let sent := (rest.drop len).take 2
      match Kind.ofCode (b1.extractLsb' 0 4).toNat with
      | none => .error
      | some kind =>
        if mustBeZero b2 b3 && bytes16 (crc16 (b0 :: b1 :: b2 :: b3 :: payload)) == sent then
          .good { dest := b0.extractLsb' 2 6, src := b0.extractLsb' 0 2 ++ b1.extractLsb' 4 4, kind := kind,
                  tag := b2.extractLsb' 4 4, proxy := bit b2 3, payload := payload }
        else .error
  | _ => .incomplete

/-- The header and payload bytes of a frame. -/
def frameBody (f : Frame) : List Byte :=
  [f.dest ++ f.src.extractLsb' 4 2,
   f.src.extractLsb' 0 4 ++ BitVec.ofNat 4 f.kind.code,
   f.tag ++ (if f.proxy then 8#4 else 0#4),
   BitVec.ofNat 8 f.payload.length] ++ f.payload

/-- The bytes of a frame on the link after its start delimiter, the CRC high byte first. -/
def frameBytes (f : Frame) : List Byte := frameBody f ++ bytes16 (crc16 (frameBody f))

/-! ## The step record (8 bytes) -/

/-- A domain byte: 0 to 11, or 0xFF for NONE. -/
def domainOfByte (b : Byte) : Option (Option Domain) :=
  if b = 0xFF#8 then some none else if h : b.toNat < 12 then some (some ⟨b.toNat, h⟩) else none

/-- The byte of an optional domain. -/
def byteOfDomain (d : Option Domain) : Byte := optByte (d.map Fin.val)

/-- A state on completion: 0 to 3, or 0xFF for absent. -/
def doneOfByte (b : Byte) : Option (Option OrdState) :=
  if b = 0xFF#8 then some none else (OrdState.ofByte b).map some

/-- The byte of a state on completion. -/
def byteOfDone (x : Option OrdState) : Byte := optByte (x.map OrdState.code)

/-- A guard: its form and source; the source is not read for ALWAYS. -/
def guardOfBytes (form source : Byte) : Option Guard :=
  match form.toNat with
  | 0 => some .always
  | 1 => if h : source.toNat < 16 then some (.armed ⟨source.toNat, h⟩) else none
  | 2 => if h : source.toNat < 16 then some (.notArmed ⟨source.toNat, h⟩) else none
  | 3 => if h : source.toNat < 16 then some (.reason ⟨source.toNat, h⟩) else none
  | 4 => if h : source.toNat < 16 then some (.notReason ⟨source.toNat, h⟩) else none
  | _ => none

/-- The two bytes of a guard. -/
def bytesOfGuard : Guard → List Byte
  | .always => [0#8, 0#8]
  | .armed s => [1#8, byteOf s.val]
  | .notArmed s => [2#8, byteOf s.val]
  | .reason s => [3#8, byteOf s.val]
  | .notReason s => [4#8, byteOf s.val]

/-- The domain of a LINE or DELAY with its state on completion: NONE with a state on completion is refused (R29). -/
def pairDone (d : Option Domain) (done : Option OrdState) : Option (Option (Domain × Option OrdState)) :=
  match d, done with
  | none, none => some none
  | none, some _ => none
  | some d, done => some (some (d, done))

/-- The action of a step record, under the conditions of R29. -/
def actionOfBytes (b0 dom target level done : Byte) : Option Action :=
  match domainOfByte dom, doneOfByte done with
  | some d, some st =>
    match (b0.extractLsb' 6 2).toNat with
    | 0 =>
      match d, st, OrdState.ofByte target with
      | some d, none, some t => some (.order d t (bit b0 4))
      | _, _, _ => none
    | 1 =>
      match pairDone d st with
      | some p =>
        if h : target.toNat < 16 then
          if level.toNat < 2 then some (.line p ⟨target.toNat, h⟩ (level == 1#8) (bit b0 4)) else none
        else none
      | none => none
    | 2 =>
      match d with
      | some d => if target.toNat < 2 ∧ bit b0 4 = false then some (.awaitGood d (target == 0#8) st) else none
      | none => none
    | _ => if bit b0 4 = false then (pairDone d st).map .delay else none
  | _, _ => none

/-- A step record from its 8 bytes, or none where R29 or R173 refuses it. -/
def stepOfBytes : List Byte → Option StepRecord
  | [b0, dom, target, level, done, code, form, source] =>
    match actionOfBytes b0 dom target level done, guardOfBytes form source with
    | some a, some g => some ⟨a, bit b0 5, code, if bit b0 3 then .continue else .abort, g⟩
    | _, _ => none
  | _ => none

/-- Byte 0 of a step record: action, join, reversible, failure policy; bits not read are 0 (R173). -/
def stepByte0 (action : Nat) (r : StepRecord) (reversible : Bool) : Byte :=
  byteOf (action * 64 + (if r.join then 32 else 0) + (if reversible then 16 else 0)
    + (match r.policy with | .abort => 0 | .continue => 8))

/-- The domain byte and the state-on-completion byte of a LINE or DELAY. -/
def bytesOfPair (p : Option (Domain × Option OrdState)) : Byte × Byte :=
  (byteOfDomain (p.map Prod.fst), byteOfDone (p.bind Prod.snd))

/-- The 8 bytes of a step record as GET returns it. -/
def bytesOfStep (r : StepRecord) : List Byte :=
  (match r.action with
   | .order d t rev => [stepByte0 0 r rev, byteOf d.val, byteOf t.code, 0#8, 0xFF#8]
   | .line p l high rev =>
     [stepByte0 1 r rev, (bytesOfPair p).1, byteOf l.val, byteOfBool high, (bytesOfPair p).2]
   | .awaitGood d a done => [stepByte0 2 r false, byteOf d.val, if a then 0#8 else 1#8, 0#8, byteOfDone done]
   | .delay p => [stepByte0 3 r false, (bytesOfPair p).1, 0#8, 0#8, (bytesOfPair p).2])
  ++ r.code :: bytesOfGuard r.guard

/-! ## The directory entry (3 bytes) -/

/-- A directory entry, under the tests of R23. -/
def dirOfBytes : List Byte → Option DirEntry
  | [f, c, k] =>
    if f.toNat ≤ 127 ∧ c.toNat ≤ 32 ∧ f.toNat + c.toNat ≤ 128 ∧ k.toNat ≤ c.toNat then
      some ⟨f.toNat, c.toNat, k.toNat⟩
    else none
  | _ => none

/-- The 3 bytes of a directory entry. -/
def bytesOfDir (e : DirEntry) : List Byte := [byteOf e.first, byteOf e.count, byteOf e.commit]

/-! ## The domain configuration record (4 bytes) -/

/-- An agent byte: 1 to 62, or 0xFF. -/
def agentOfByte (b : Byte) : Option (Option Addr) :=
  if b = 0xFF#8 then some none
  else if 1 ≤ b.toNat ∧ b.toNat ≤ 62 then some (some (b.extractLsb' 0 6)) else none

/-- The byte of an optional agent. -/
def byteOfAgent (a : Option Addr) : Byte := optByte (a.map BitVec.toNat)

/-- A power-good byte: 0 to 15, or 0xFF. -/
def pgOfByte (b : Byte) : Option (Option PgLine) :=
  if b = 0xFF#8 then some none else if h : b.toNat < 16 then some (some ⟨b.toNat, h⟩) else none

/-- A configuration record and the controller bit it carries. -/
structure DomainWrite where
  config     : DomainConfig
  controller : Bool
  deriving DecidableEq, Repr

/-- A domain configuration record from its 4 bytes; monitored OFF is refused (R13). -/
def domainOfBytes : List Byte → Option DomainWrite
  | [a, p, f, b] =>
    match agentOfByte a, pgOfByte p with
    | some agent, some pg =>
      if bit f 3 then none
      else some ⟨⟨agent, pg, bit f 2, bit f 1, bit f 0, if bit f 5 then .shutdown else .report, bit f 7, b⟩, bit f 6⟩
    | _, _ => none
  | _ => none

/-- The 4 bytes of a domain configuration record as GET returns it. -/
def bytesOfDomain (c : DomainConfig) (controller : Bool) : List Byte :=
  [byteOfAgent c.agent, optByte (c.pgLine.map Fin.val),
   byteOf ((if c.required then 128 else 0) + (if controller then 64 else 0)
     + (match c.policy with | .report => 0 | .shutdown => 32)
     + (if c.monOn then 4 else 0) + (if c.monIdle then 2 else 0) + (if c.monRetain then 1 else 0)),
   c.blanking]

/-- The 2 bytes of a domain status record: recorded state; fault in bits 7 to 4 and last fault cause in bits 3 to 0. -/
def bytesOfStatus (x : DomainStatus) : List Byte :=
  [byteOf x.recorded.code, byteOf (x.fault.code * 16 + lastCauseCode x.lastCause)]

/-! ## The match entry (15 bytes) -/

/-- A match entry's kind byte: NOTE, ASK, ALERT, or 0xFF for ANY. -/
def matchKindOfByte (b : Byte) : Option (Option Kind) :=
  if b = 0xFF#8 then some none
  else match b.toNat with
    | 0 => some (some .note) | 1 => some (some .ask) | 5 => some (some .alert) | _ => none

/-- The action bits of a match entry. -/
def MatchAction.ofCode : Nat → MatchAction
  | 0 => .drop | 1 => .keep | 2 => .wake | _ => .wakeKeep

/-- DROP, KEEP, WAKE, WAKE+KEEP. -/
def MatchAction.code : MatchAction → Nat
  | .drop => 0 | .keep => 1 | .wake => 2 | .wakeKeep => 3

/-- The action has a WAKE part. -/
def MatchAction.wakes : MatchAction → Bool
  | .wake | .wakeKeep => true
  | .drop | .keep => false

/-- The message source that six bits name, 10 to 15. -/
def messageSource (b : BitVec 6) : Option Source :=
  if h : 10 ≤ b.toNat ∧ b.toNat < 16 then some ⟨b.toNat, h.2⟩ else none

/-- A match entry from its 15 bytes with run count 0, under the tests of R126; the source of a DROP or KEEP is kept and
not read (R125). -/
def matchOfBytes : List Byte → Option MatchEntry
  | [b0, a, k, q, m, l, l3, l2, l1, l0, h3, h2, h1, h0, act] =>
    let action := MatchAction.ofCode (act.extractLsb' 6 2).toNat
    match agentOfByte a, matchKindOfByte k with
    | some agent, some kind =>
      if hm : m.toNat < 32 then
        if hl : l.toNat < 32 then
          if l.toNat ≤ m.toNat ∧ (action.wakes = false ∨ (messageSource (act.extractLsb' 0 6)).isSome) then
            some { valid := bit b0 7, agent := agent, kind := kind, fieldTest := bit b0 6,
                   offset := (q.extractLsb' 0 5).toFin, msb := ⟨m.toNat, hm⟩, lsb := ⟨l.toNat, hl⟩,
                   signed := bit b0 5, low := word32 l3 l2 l1 l0, high := word32 h3 h2 h1 h0, outside := bit b0 4,
                   qualifier := (q.extractLsb' 5 3).toNat + 1, action := action, source := act.extractLsb' 0 6,
                   run := 0 }
          else none
        else none
      else none
    | _, _ => none
  | _ => none

/-- The 15 bytes of a match entry as GET returns it, the run count in bits 2 to 0 of the first. -/
def bytesOfMatch (e : MatchEntry) : List Byte :=
  [byteOf ((if e.valid then 128 else 0) + (if e.fieldTest then 64 else 0) + (if e.signed then 32 else 0)
     + (if e.outside then 16 else 0) + e.run % 8),
   byteOfAgent e.agent, optByte (e.kind.map Kind.code), byteOf ((e.qualifier - 1) * 32 + e.offset.val),
   byteOf e.msb.val, byteOf e.lsb.val]
  ++ bytes32 e.low ++ bytes32 e.high ++ [BitVec.ofNat 2 e.action.code ++ e.source]

/-! ## The smaller layouts -/

/-- An Agent Map entry: 0 to 11, or 0xFF for NONE (R18). -/
def agentMapOfBytes : List Byte → Option (Option Domain)
  | [b] => domainOfByte b
  | _ => none

/-- A Line Qualifier's mode and filter code from its 2 bytes. -/
def lineOfBytes : List Byte → Option (LineMode × TimeCode)
  | [b, c] => (LineMode.ofCode (b.extractLsb' 0 3).toNat).map (fun m => (m, c))
  | _ => none

/-- The 2 bytes of a Line Qualifier as GET returns it. -/
def bytesOfLine (q : LineQualifier) : List Byte :=
  [byteOf ((if q.level then 128 else 0) + q.mode.code), q.filter]

/-- The press record: latched in bit 1, overridden in bit 0. -/
def pressRecord (b : Button) : Byte := byteOf ((if b.latched then 2 else 0) + (if b.overridden then 1 else 0))

/-- The seven REPORT bytes (R169). -/
def bytesOfReport (r : Report) : List Byte :=
  [optByte r.sequence, byteOf r.outcome.code, byteOf r.cause.code, optByte r.failing, optByte (r.source.map Fin.val)]
  ++ bytes12 r.unknown

/-- The nine Wake Context bytes behind "present" (section 10.5.2). -/
def bytesOfContext (c : WakeContext) : List Byte :=
  [byteOf c.fromState.stateCode, c.reason.code] ++ bytes16 c.latch ++ bytes16 c.armed ++ bytes24 c.sleepDuration

/-- The five bytes of a Hold Queue record's header: log entry 5 for the first. -/
def bytesOfHold (r : HoldRecord) : List Byte :=
  [Config.holdRecordByte r.up r.releasable (byteOf r.frame.kind.code), r.frame.dest.setWidth 8, r.frame.src.setWidth 8,
   r.frame.tag.setWidth 8, byteOf r.frame.payload.length]

/-! ## Index and count of a request (R166, R167) -/

/-- The first index and the items of a SET: BAD-KIND where the payload is too short for index and count or its length is
not what they imply, then BAD-SELECT where the index or the count lies outside `lowest` to `highest` or the count is
above `limit`. -/
def setItems (size limit lowest highest : Nat) : List Byte → Except ResultCode (Nat × List (List Byte))
  | _ :: first :: count :: data =>
    if data.length ≠ size * count.toNat then .error .badKind
    else if count.toNat = 0 ∨ limit < count.toNat ∨ first.toNat < lowest ∨ highest < first.toNat
        ∨ highest + 1 < first.toNat + count.toNat then .error .badSelect
    else .ok (first.toNat, chunks size count.toNat data)
  | _ => .error .badKind

/-- The first index and the count of a GET, under the same tests. A count of 0 is refused for every object with items: R13, R18,
R23, R26, R126, R127 and R172 say so of theirs, and the Line Qualifiers and the domain status are taken alike. DEDUCED, log
entry 37. -/
def getItems (limit lowest highest : Nat) : List Byte → Except ResultCode (Nat × Nat)
  | [_, first, count] =>
    if count.toNat = 0 ∨ limit < count.toNat ∨ first.toNat < lowest ∨ highest < first.toNat
        ∨ highest + 1 < first.toNat + count.toNat then .error .badSelect
    else .ok (first.toNat, count.toNat)
  | _ => .error .badKind

end Sys2Proof.Machine
end

