-- ==== Sys2Proof/Machine/Flags.lean ====
section
/-! DEFINITION. The conditions that the part reads from its state at an event and does not store: what is armed, what is
stalled, what is monitored, which sequence runs. -/

namespace Sys2Proof.Machine

/-! ## Reading the tables -/

/-- The recorded state of a domain (R12). -/
def State.recorded (s : State) (d : Domain) : DomState := s.dom.status[d].recorded

/-- The configuration record of a domain. -/
def State.config (s : State) (d : Domain) : DomainConfig := s.dom.config[d]

/-- The domain that the Agent Map gives for an address; an address outside 1 to 62 has no entry (R18). -/
def State.mapped (s : State) (a : Addr) : Option Domain :=
  if 1 ≤ a.toNat then (s.dom.agentMap[a.toNat - 1]?).join else none

/-- The served domain of an agent: the domain whose configuration names it (R13). -/
def State.servedDomain (s : State) (a : Addr) : Option Domain :=
  allDomains.find? fun d => decide ((s.config d).agent = some a)

/-- The step at a Step Store index (R22). -/
def State.stepAt (s : State) (i : Nat) : StepRecord := (s.eng.store[i]?).getD StepRecord.empty

/-- The directory entry of a sequence (R22). -/
def State.dirEntry (s : State) (k : Nat) : DirEntry := (s.eng.directory[k]?).getD DirEntry.empty

/-! ## The platform state -/

/-- The platform is in a transitional state (R1). -/
def Platform.transitional : Platform → Bool
  | .entering _ | .unwinding _ | .waking _ | .forcing => true
  | .working | .rest _ => false

/-- The platform is ENTERING (R57). -/
def Platform.isEntering : Platform → Bool
  | .entering _ => true
  | .working | .rest _ | .unwinding _ | .waking _ | .forcing => false

/-- The platform is STANDBY, HIBERNATE or SOFTOFF. -/
def Platform.isRest : Platform → Bool
  | .rest _ => true
  | .working | .entering _ | .unwinding _ | .waking _ | .forcing => false

/-- The index of the sequence running when FORCING or a mains loss is taken; in UNWINDING the entry's (R78, R86). -/
def Platform.sequence : Platform → Option Nat
  | .working | .rest _ => none
  | .entering t | .unwinding t => some t.code
  | .waking f => some (3 + f.code)
  | .forcing => some 6

/-- The running sequence that GET returns: absent in a rest state and in UNWINDING (R1). -/
def Platform.shownSequence : Platform → Option Nat
  | .working | .rest _ | .unwinding _ => none
  | .entering t => some t.code
  | .waking f => some (3 + f.code)
  | .forcing => some 6

/-- The commit point has been reached: a planned step at its position or a greater one has started (R24). -/
def State.commitReached (s : State) : Bool :=
  match s.eng.plan with
  | none => false
  | some p => (p.steps.take p.started).any fun q => decide (p.commit ≤ q.position)

/-! ## Arming (R98) -/

/-- The Entry Mask of a sleep state. -/
def State.mask (s : State) : Sleep → SourceSet
  | .standby => s.wake.maskStandby
  | .hibernate => s.wake.maskHibernate
  | .softoff => s.wake.maskSoftoff

/-- The Armed set for a sleep state: the Wake Enable set less its Entry Mask, less the Suppressed set (R98). -/
def State.armedFor (s : State) (f : Sleep) : SourceSet :=
  diff (diff s.wake.enable (s.mask f)) s.wake.suppressed

/-! ## Sets read from the Domain Table -/

/-- The domains recorded UNKNOWN (R66). -/
def State.unknownSet (s : State) : DomainSet := setOf allDomains fun d => decide (s.recorded d = .unknown)

/-- The domains whose fault field is LATCHED or QUALIFYING (R64). -/
def State.railFaultSet (s : State) : DomainSet := setOf allDomains fun d => decide (s.dom.status[d].fault ≠ .noFault)

/-- The resume check: every required domain is recorded ON (R21). -/
def State.resumeCheck (s : State) : Bool :=
  allDomains.all fun d => !(s.config d).required || decide (s.recorded d = .on)

/-! ## Steps in flight and monitoring (R152) -/

/-- The domain that an action names. -/
def Action.domain : Action → Option Domain
  | .order d _ _ => some d
  | .line p _ _ _ => p.map Prod.fst
  | .awaitGood d _ _ => some d
  | .delay p => p.map Prod.fst

/-- The domain that an undo record names. -/
def UndoAction.domain : UndoAction → Option Domain
  | .order d _ => some d
  | .line p _ _ => p.map Prod.fst

/-- The state an action writes when it completes, other than an ORDER's reached state. -/
def Action.done : Action → Option (Domain × OrdState)
  | .order _ _ _ => none
  | .line p _ _ _ => p.bind fun (d, st) => st.map fun x => (d, x)
  | .awaitGood d _ st => st.map fun x => (d, x)
  | .delay p => p.bind fun (d, st) => st.map fun x => (d, x)

/-- The domain that an action ends in ON for (R45). -/
def Action.endsOn : Action → Option Domain
  | .order d t _ => if t = .on then some d else none
  | .line p _ _ _ => p.bind fun (d, st) => if st = some .on then some d else none
  | .awaitGood d _ st => if st = some .on then some d else none
  | .delay p => p.bind fun (d, st) => if st = some .on then some d else none

/-- The domain that an undo restores ON for (R72). -/
def UndoAction.restoresOn : UndoAction → Option Domain
  | .order d prior => if prior = .on ∨ prior = .unknown then some d else none
  | .line p _ _ => p.bind fun (d, prior) => if prior = .on then some d else none

/-- A step or an undo that names the domain is in flight (R152). -/
def State.inFlight (s : State) (d : Domain) : Bool :=
  s.eng.running.any (fun m => decide (m.plan.step.action.domain = some d))
  || s.eng.undo.any (fun u => decide (u.record.action.domain = some d))

/-- The recorded state is in the monitored states; OFF and UNKNOWN never are (R152). -/
def DomainConfig.monitors (c : DomainConfig) : DomState → Bool
  | .on => c.monOn
  | .idle => c.monIdle
  | .retain => c.monRetain
  | .off | .unknown => false

/-- The domain is monitored (R152). -/
def State.monitored (s : State) (d : Domain) : Bool :=
  (s.config d).pgLine.isSome && (s.config d).monitors (s.recorded d) && !s.inFlight d
  && decide (s.dom.status[d].fault ≠ .qualifying)

/-- The deglitched level of a power-good line (R151). -/
def State.pgLevel (s : State) (l : PgLine) : Bool := s.mon.pg[l].level

/-- The Monitor's test finds a fault to latch: monitored, line DEASSERTED, fault field NONE (R153). -/
def State.railFaulty (s : State) (d : Domain) : Bool :=
  s.monitored d && decide (s.dom.status[d].fault = .noFault)
  && (s.config d).pgLine.any fun l => !s.pgLevel l

/-! ## The ports and the Gate -/

/-- The port asserts ready while its input FIFO holds fewer than 4 frames (R162). -/
def Port.ready (p : Port) : Bool := decide (p.input.length < 4)

/-- A loading is in progress, so no frame is taken from an input FIFO (R162). -/
def State.isLoading (s : State) : Bool := s.ldr.loading.isSome

/-- The link is held UP: a REINIT loads and no mains loss has been taken during it (R19, R181). -/
def State.linkHeld (s : State) : Bool := s.ldr.loading.any fun l => l.byReinit && !l.mainsLost

/-- The Gate's upstream forward path is stalled (R147). -/
def State.upstreamStalled (s : State) : Bool := s.dom.linkUp && s.gate.hold.any fun r => r.up

/-- The memory port asserts its select line while it reads the image (R175). -/
def State.memorySelect (s : State) : Bool :=
  match s.ldr.loading with
  | some ⟨_, .header, _, _⟩ | some ⟨_, .body _, _, _⟩ => true
  | some ⟨_, .records _, _, _⟩ | none => false

/-- The read command and address that the memory port sends when it asserts its select line (R175). -/
def memoryReadCommand : List Byte := [0x03#8, 0x00#8, 0x00#8, 0x00#8]

/-- Where a good frame taken from the Upstream Port goes while the link is UP (R163). -/
inductive UpRoute where
  | management | gate | discard
  deriving DecidableEq, Repr

/-- The routing table of R163. -/
def routeUp (f : Frame) : UpRoute :=
  if f.src ≠ 0#6 ∨ f.proxy = true then .discard
  else if f.dest = 63#6 then
    if f.kind = .set ∨ f.kind = .get ∨ f.kind = .go ∨ f.kind = .clear then .management else .discard
  else if f.dest = 0#6 then .discard
  else if f.kind = .note ∨ f.kind = .ask ∨ f.kind = .answer then .gate
  else .discard

/-- Where a good frame taken from the Downstream Port goes (R164). -/
inductive DownRoute where
  | matcher | gate | engine | discard
  deriving DecidableEq, Repr

/-- The routing table of R164. -/
def routeDown (f : Frame) : DownRoute :=
  if f.src = 0#6 ∨ f.src = 63#6 ∨ f.proxy = true then .discard
  else if f.dest = 0#6 then
    if f.kind = .note ∨ f.kind = .ask ∨ f.kind = .alert then .matcher
    else if f.kind = .answer then .gate else .discard
  else if f.dest = 63#6 then (if f.kind = .orderDone then .engine else .discard)
  else .discard

/-- A frame that waits for the Matcher or the Gate, past which the others may be taken (R147). -/
def isTraffic (f : Frame) : Bool :=
  match routeDown f with
  | .matcher | .gate => true
  | .engine | .discard => false

/-! ## The Storm Monitor -/

/-- The Storm Monitor is enabled: the window has a duration (R106). -/
def State.stormEnabled (s : State) : Bool := decide (ticks s.wake.window ≠ 0)

/-- The conditions under which a latch event of a source is counted (R107). -/
def State.stormCounts (s : State) (src : Source) : Bool :=
  s.stormEnabled && decide (src ≠ 0) && hasBit s.wake.enable src && !hasBit s.wake.suppressed src && !s.isLoading

/-- The line is at the active level of its level mode (R114). -/
def LineQualifier.active (q : LineQualifier) : Bool :=
  match q.mode with
  | .high => q.level
  | .low => !q.level
  | .rise | .fall | .both | .disabled => false

/-- The change to a level makes a latch event under the mode (R113, R114). -/
def LineMode.names (m : LineMode) (high : Bool) : Bool :=
  match m with
  | .rise | .high => high
  | .fall | .low => !high
  | .both => true
  | .disabled => false

/-- Wake line WLk feeds source k + 2 (section 6.1). -/
def lineSource (k : WakeLine) : Source := ⟨k.val + 2, by omega⟩

end Sys2Proof.Machine
end

