-- ==== Sys2Proof/Machine/Ops.lean ====
section
/-! DEFINITION. The shared operations: counters, frames the part makes, the link state, the Hold Queue's release and
reclassification, the write of a recorded state with its consequences, the enable outputs, REPORT records. -/

namespace Sys2Proof.Machine

/-! ## Counters (R170) -/

/-- A counter raised by n; it stays at 255. -/
def saturate (c n : Nat) : Nat := min 255 (c + n)

/-- Replace the counters. -/
def State.withCounters (s : State) (c : Counters) : State := s.withMgmt { s.mgmt with counters := c }

/-- n frames or messages are counted in DISCARDED. -/
def countDiscarded (n : Nat) (s : State) : State :=
  s.withCounters { s.mgmt.counters with discarded := saturate s.mgmt.counters.discarded n }

/-- A message refused for a full Hold Queue is counted in HOLD-OVERFLOW. -/
def countOverflow (s : State) : State :=
  s.withCounters { s.mgmt.counters with holdOverflow := saturate s.mgmt.counters.holdOverflow 1 }

/-- A late ORDER-DONE is counted in LATE. -/
def countLate (s : State) : State :=
  s.withCounters { s.mgmt.counters with late := saturate s.mgmt.counters.late 1 }

/-- A stray ORDER-DONE is counted in STRAY. -/
def countStray (s : State) : State :=
  s.withCounters { s.mgmt.counters with stray := saturate s.mgmt.counters.stray 1 }

/-- A frame error is counted at its port. -/
def countFrameError (p : PortId) (s : State) : State :=
  match p with
  | .upstream => s.withCounters { s.mgmt.counters with frameErrorsUp := saturate s.mgmt.counters.frameErrorsUp 1 }
  | .downstream => s.withCounters { s.mgmt.counters with frameErrorsDown := saturate s.mgmt.counters.frameErrorsDown 1 }

/-! ## Frames the part makes (R165, R169) -/

/-- The places of the upstream own-frame queue open to a frame that is no RESULT: one is reserved while a REINIT is
served (R165). -/
def State.upstreamPlaces (s : State) : Nat := if s.mgmt.serving.isSome then 23 else 24

/-- A frame made at the Upstream Port joins its own-frame queue; with the link DOWN no frame is made (R20, R165). -/
def queueUp (f : Frame) (s : State) : State :=
  if s.dom.linkUp then
    if s.up.own.length < s.upstreamPlaces then s.withUp { s.up with own := s.up.own ++ [f] } else countDiscarded 1 s
  else s

/-- A RESULT joins the queue at the place reserved for it (R165, R166). -/
def queueResult (f : Frame) (s : State) : State :=
  if s.dom.linkUp then
    if s.up.own.length < 24 then s.withUp { s.up with own := s.up.own ++ [f] } else countDiscarded 1 s
  else s

/-- A frame made at the Downstream Port joins its own-frame queue (R165). -/
def queueDown (f : Frame) (s : State) : State :=
  if s.down.own.length < 24 then s.withDown { s.down with own := s.down.own ++ [f] } else countDiscarded 1 s

/-- A RESULT from 63 to 0 with the request's tag (R166). -/
def resultFrame (tag : Tag) (code : ResultCode) (data : List Byte) : Frame :=
  ⟨0#6, 63#6, .result, tag, false, code.code :: data⟩

/-- A notice from 63 to 0 with tag 0 (R169). -/
def noticeFrame (kind : Kind) (payload : List Byte) : Frame := ⟨0#6, 63#6, kind, 0#4, false, payload⟩

/-- EVENT SOURCE (R95, R169). -/
def sourceNotice (src : Source) (generation : BitVec 16) : Frame :=
  noticeFrame .event ([0#8, byteOf src.val] ++ bytes16 generation)

/-- EVENT RAIL-FAULT (R154, R169). -/
def railNotice (d : Domain) : Frame := noticeFrame .event [1#8, byteOf d.val]

/-- EVENT STORM (R108, R169). -/
def stormNotice (src : Source) : Frame := noticeFrame .event [2#8, byteOf src.val]

/-- REPORT (R67, R169). -/
def reportNotice (r : Report) : Frame := noticeFrame .report (bytesOfReport r)

/-- An ORDER from 63 to an agent (R50). -/
def orderFrame (agent : Addr) (tag : Tag) (target : OrdState) : Frame :=
  ⟨agent, 63#6, .order, tag, false, [byteOf target.code]⟩

/-- A proxy ANSWER in the place of the party the ASK was addressed to (R140). -/
def proxyAnswer (ask : Frame) (status : Byte) : Frame := ⟨ask.src, ask.dest, .answer, ask.tag, true, [status]⟩

/-- The status ASLEEP (R140). -/
def asleep : Byte := 0x01#8

/-- The status HOLD-FULL (R140). -/
def holdFull : Byte := 0x02#8

/-! ## The Hold Queue (R140, R143 to R149) -/

/-- Replace the Hold Queue's records. -/
def State.withHold (s : State) (h : List HoldRecord) : State := s.withGate { s.gate with hold := h }

/-- A downstream message is refused: an ASK is answered by proxy while the link is UP, anything else is discarded (R140). -/
def refuseDown (f : Frame) (s : State) : State :=
  if f.kind = .ask ∧ s.dom.linkUp = true then queueUp (proxyAnswer f asleep) s else countDiscarded 1 s

/-- A DOWN record that leaves the queue is refused like a message (R148), or discarded and counted where the link was DOWN
at the moment that fixed its end. -/
def dropRecord (lost : HoldRecord → Bool) (s : State) (r : HoldRecord) : State :=
  if lost r then countDiscarded 1 s else refuseDown r.frame s

/-- Records that have left the queue, each handled as R148 gives, in the order of the list. -/
def dropRecords (lost : HoldRecord → Bool) (l : List HoldRecord) (s : State) : State := l.foldl (dropRecord lost) s

/-- The record's destination belongs to a domain of the set in the Agent Map as it stands (R145, R148). -/
def State.recordOf (s : State) (x : DomainSet) (r : HoldRecord) : Bool := (s.mapped r.frame.dest).any (hasBit x)

/-- A DOWN record of a domain of the set. -/
def State.downRecordOf (s : State) (x : DomainSet) (r : HoldRecord) : Bool := !r.up && s.recordOf x r

/-- What one event has taken out of the Hold Queue because domains left the Rising set while not recorded ON. The records
leave the queue at once; what becomes of each is fixed by the link state at the step at which its domain leaves, before any
later step of the event (R46, R72 step 4, R76 step 1, R148). The answers and discards are made in one pass for the whole
event, in queue order (R143). Log entry 30. -/
structure Departed where
  /-- The Hold Queue as the event found it, which gives the order of the pass. -/
  queue    : List HoldRecord
  /-- The domains that left with the link UP, and it has not gone DOWN since: an ASK held for them is answered ASLEEP. -/
  answered : DomainSet
  /-- The domains that left with the link DOWN, or it has gone DOWN since, which discards an answer that waits on it (R20):
  every record held for them is discarded and counted. -/
  lost     : DomainSet
  /-- How many frames the upstream own-frame queue held at the last step at which records left with the link UP: the answers
  stand there, ahead of the frames that later steps of the event make. -/
  place    : Nat
  deriving DecidableEq, Repr

/-- An event begins: no record has left the queue that it finds. -/
def Departed.start (s : State) : Departed := ⟨s.gate.hold, 0#12, 0#12, 0⟩

/-- Domains join those that have left, by the link state as it stands. -/
def Departed.join (left : Departed) (x : DomainSet) (s : State) : Departed :=
  if s.dom.linkUp then
    { left with
      answered := left.answered ||| x,
      place := if s.gate.hold.any (s.downRecordOf x) then s.up.own.length else left.place }
  else { left with answered := 0#12, lost := left.answered ||| left.lost ||| x }

/-- Domains leave the Rising set while not recorded ON: their DOWN records leave the Hold Queue (R148). -/
def depart (x : DomainSet) (left : Departed) (s : State) : State × Departed :=
  (s.withHold (s.gate.hold.filter fun r => !s.downRecordOf x r), left.join x s)

/-- The records that have left, in queue order. -/
def Departed.records (left : Departed) (s : State) : List HoldRecord :=
  left.queue.filter (s.downRecordOf (left.answered ||| left.lost))

/-- The end of a record held for a domain that left with the link DOWN is to be discarded. -/
def Departed.lostRecord (left : Departed) (s : State) : HoldRecord → Bool := s.recordOf left.lost

/-- The first n frames of the upstream own-frame queue alone. -/
def State.withOwnTaken (s : State) (n : Nat) : State := s.withUp { s.up with own := s.up.own.take n }

/-- Frames join the queue again, behind those that a pass has put ahead of them. -/
def requeue (l : List Frame) (s : State) : State := l.foldl (fun s f => queueUp f s) s

/-- The one pass of an event over the records that have left, in the order of the list. While the link is UP their answers
stand in the own-frame queue behind the first `place` frames. -/
def passAt (place : Nat) (lost : HoldRecord → Bool) (l : List HoldRecord) (s : State) : State :=
  match l with
  | [] => s
  | l =>
    if s.dom.linkUp then requeue (s.up.own.drop place) (dropRecords lost l (s.withOwnTaken place))
    else dropRecords lost l s

/-- The reclassification of an event: one pass over the records that have left, in queue order, each with the end that
`Departed` has fixed (R143, R148). Log entry 30. -/
def reclassify (left : Departed) (s : State) : State := passAt left.place (left.lostRecord s) (left.records s) s

/-- Every DOWN record leaves; the pass takes the records that left earlier at the event with it, in queue order
(R143, R149). -/
def dropAllDown (left : Departed) (s : State) : State :=
  passAt (if s.gate.hold.any fun r => !r.up then s.up.own.length else left.place) (left.lostRecord s)
    (left.queue.filter fun r => !r.up) (s.withHold (s.gate.hold.filter fun r => r.up))

/-- The release of a domain: the DOWN records whose destination the Agent Map gives as it become releasable (R145). -/
def releaseDomain (d : Domain) (s : State) : State :=
  s.withHold (s.gate.hold.map fun r => if !r.up && decide (s.mapped r.frame.dest = some d) then { r with releasable := true } else r)

/-- Every UP record becomes releasable while the permit is set and the link is UP (R146). -/
def markUp (s : State) : State :=
  if s.gate.permit && s.dom.linkUp then
    s.withHold (s.gate.hold.map fun r => if r.up then { r with releasable := true } else r)
  else s

/-- Set or clear the UP release permit. -/
def State.withPermit (s : State) (b : Bool) : State := s.withGate { s.gate with permit := b }

/-- The completion of a wake sets the permit, or clears it with no UP record held (R146). -/
def permitAtWake (s : State) : State := markUp (s.withPermit (s.gate.hold.any fun r => r.up))

/-! ## The upstream link state (R19, R20) -/

/-- Replace the upstream link state. -/
def State.withLink (s : State) (b : Bool) : State := s.withDom { s.dom with linkUp := b }

/-- The link goes DOWN: the own-frame queue, the output FIFO and a message waiting at the arbiter are discarded, each
counted; a frame that the port has begun to send is sent to its end (R20, R165). -/
def linkDown (s : State) : State :=
  countDiscarded (s.up.own.length + s.up.output.length + s.up.forwarded.toList.length)
    ((s.withUp { s.up with own := [], output := [], forwarded := none }).withLink false)

/-- The link goes UP: UP records become releasable if the permit is still set (R146). -/
def linkUp (s : State) : State := markUp (s.withLink true)

/-- The upstream link state is recomputed from the controller domain's recorded state, unless it is held UP (R19). -/
def recomputeLink (s : State) : State :=
  if s.linkHeld then s
  else if s.recorded s.dom.controller = .on then (if s.dom.linkUp then s else linkUp s)
  else (if s.dom.linkUp then linkDown s else s)

/-! ## Domain status (R16, R17) -/

/-- Replace the status record of a domain. -/
def State.withStatus (s : State) (d : Domain) (x : DomainStatus) : State :=
  s.withDom { s.dom with status := s.dom.status.set d x }

/-- A recorded state is written, with the consequences of R16 on the link and on held records. The Monitor takes the new
value at the end of the event (R152). -/
def writeDomain (d : Domain) (st : DomState) (s : State) : State :=
  let s1 := s.withStatus d { s.dom.status[d] with recorded := st }
  let s2 := if s1.dom.controller = d then recomputeLink s1 else s1
  if st = .on then releaseDomain d s2 else s2

/-- A failure is recorded as the domain's last fault cause (R17). -/
def writeCause (d : Domain) (c : FaultCause) (s : State) : State :=
  s.withStatus d { s.dom.status[d] with lastCause := some c }

/-- Every domain's recorded state becomes OFF (R82, R85). -/
def allDomainsOff (s : State) : State := allDomains.foldl (fun s d => writeDomain d .off s) s

/-! ## The enable outputs (R55, R82, R83) -/

/-- The Line Driver drives one enable output. -/
def driveLine (l : EnLine) (high : Bool) (s : State) : State :=
  s.withLines { s.lines with levels := putBit s.lines.levels l high }

/-- Every enable output is driven to its safe level. -/
def driveSafe (s : State) : State := s.withLines { s.lines with levels := s.lines.safe }

/-! ## Engine fields -/

/-- Replace the platform state. -/
def State.withPlatform (s : State) (p : Platform) : State := s.withEng { s.eng with platform := p }

/-- Replace the Rising set. -/
def State.withRising (s : State) (r : DomainSet) : State := s.withEng { s.eng with rising := r }

/-- A REPORT record becomes the Last Report (R67). -/
def recordReport (r : Report) (s : State) : State := s.withEng { s.eng with lastReport := some r }

/-- A REPORT record is made: Last Report, and a notice if the link is UP (R67). -/
def makeReport (r : Report) (s : State) : State := queueUp (reportNotice r) (recordReport r s)

/-- The domains of a set that are not recorded ON. -/
def State.notOn (s : State) (x : DomainSet) : DomainSet :=
  setOf allDomains fun d => hasBit x d && decide (s.recorded d ≠ .on)

/-- A domain leaves the Rising set; if it is not recorded ON its held DOWN records are reclassified at this event (R46). -/
def leaveRising (d : Domain) (left : Departed) (s : State) : State × Departed :=
  depart (if s.recorded d = .on then 0#12 else setBit 0#12 d) left (s.withRising (clearBit s.eng.rising d))

/-- The domains that leave the Rising set, when it is replaced, while not recorded ON (R46, R72). -/
def State.leaving (s : State) (new : DomainSet) : DomainSet := s.notOn (diff s.eng.rising new)

/-- The Rising set is replaced; the domains that leave it while not ON are reclassified at this event (R46, R72). -/
def replaceRising (new : DomainSet) (left : Departed) (s : State) : State × Departed :=
  depart (s.leaving new) left (s.withRising new)

/-! ## The Wake Unit's arm and the sleep-duration counter (R100, R123) -/

/-- The Wake Arm is set (R100). -/
def setArm (s : State) : State := s.withWake { s.wake with arm := true }

/-- The Wake Arm is cleared and the Armed set emptied (R79, R102). -/
def disarm (s : State) : State := s.withWake { s.wake with arm := false, armed := 0#16 }

/-- The Armed set is emptied (R72). -/
def emptyArmed (s : State) : State := s.withWake { s.wake with armed := 0#16 }

/-- The Armed set is computed for a sleep state (R98). -/
def computeArmed (f : Sleep) (s : State) : State := s.withWake { s.wake with armed := s.armedFor f }

/-- The sleep-duration counter is set to 0 and starts (R123). -/
def startSleepCount (s : State) : State := s.withQual { s.qual with sleepCount := 0, sleepCounting := true }

/-- The sleep-duration counter stops and holds its count (R123). -/
def stopSleepCount (s : State) : State := s.withQual { s.qual with sleepCounting := false }

/-- The sleep-duration counter goes on from the count it holds (R123, refused OFF-WAKE). -/
def resumeSleepCount (s : State) : State := s.withQual { s.qual with sleepCounting := true }

end Sys2Proof.Machine
end

