-- ==== Sys2Proof/Machine/Sequence.lean ====
section
/-! DEFINITION. The start of a sequence: its range, the structure check, the guards, the Plan and the Rising set
(chapters 2 and 3). -/

namespace Sys2Proof.Machine

/-- The steps of a directory entry's range, in position order (R22). -/
def State.rangeOf (s : State) (e : DirEntry) : List PlanStep :=
  (List.range e.count).map fun p => ⟨e.first + p, p, s.stepAt (e.first + p)⟩

/-- What the structure check carries through the members of a group as written: how many it has, the agents of its
ORDERs and the lines of its LINEs. -/
structure GroupSeen where
  members : Nat
  agents  : List Addr
  lines   : List EnLine
  deriving DecidableEq, Repr

/-- The beginning of a group. -/
def GroupSeen.start : GroupSeen := ⟨0, [], []⟩

/-- The agent of an ORDER step's domain (R36). -/
def State.orderAgent (s : State) : Action → Option Addr
  | .order d _ _ => (s.config d).agent
  | .line _ _ _ _ | .awaitGood _ _ _ | .delay _ => none

/-- The line of a LINE step (R36). -/
def Action.enLine : Action → Option EnLine
  | .line _ l _ _ => some l
  | .order _ _ _ | .awaitGood _ _ _ | .delay _ => none

/-- The step breaks a condition of R36: fifth member; last step with join 1; second ORDER to an agent; second LINE on a
line; guarded last member of a group of two or more. -/
def breaksStructure (s : State) (last : Bool) (g : GroupSeen) (q : PlanStep) : Bool :=
  decide (4 ≤ g.members)
  || (last && q.step.join)
  || (s.orderAgent q.step.action).any (fun a => decide (a ∈ g.agents))
  || (q.step.action.enLine).any (fun l => decide (l ∈ g.lines))
  || (!q.step.join && decide (1 ≤ g.members) && decide (q.step.guard ≠ .always))

/-- The group seen after a step: a step with join 0 ends its group (R34). -/
def GroupSeen.next (s : State) (g : GroupSeen) (q : PlanStep) : GroupSeen :=
  if q.step.join then
    ⟨g.members + 1, (s.orderAgent q.step.action).toList ++ g.agents, q.step.action.enLine.toList ++ g.lines⟩
  else GroupSeen.start

/-- The first step that breaks a condition, in position order (R36). -/
def structureFault (s : State) (g : GroupSeen) : List PlanStep → Option Nat
  | [] => none
  | q :: rest =>
    if breaksStructure s rest.isEmpty g q then some q.index else structureFault s (GroupSeen.next s g q) rest

/-- Why a sequence is refused at its start (R35, R36). -/
inductive SequenceFault where
  | noSequence
  | badSequence (index : Nat)
  deriving DecidableEq, Repr

/-- The failing step index that a refusal carries (R37). -/
def SequenceFault.index : SequenceFault → Option Nat
  | .noSequence => none
  | .badSequence i => some i

/-- The checks of R35 and R36 on a sequence, and its steps if it passes. -/
def checkSequence (s : State) (k : Nat) : Except SequenceFault (List PlanStep) :=
  let e := s.dirEntry k
  if e.count = 0 then .error .noSequence
  else
    match structureFault s GroupSeen.start (s.rangeOf e) with
    | some i => .error (.badSequence i)
    | none => .ok (s.rangeOf e)

/-- A guard against a set of sources and a wake reason (R32). -/
def Guard.holds (g : Guard) (sources : SourceSet) (reason : Option Source) : Bool :=
  match g with
  | .always => true
  | .armed x => hasBit sources x
  | .notArmed x => !hasBit sources x
  | .reason x => decide (reason = some x)
  | .notReason x => decide (reason ≠ some x)

/-- The source that a wake reason is; POWER-RESTORE is none (R32). -/
def WakeReason.asSource : WakeReason → Option Source
  | .source x => some x
  | .powerRestore => none

/-- The Plan of the steps whose guards hold, with the entry's commit point (R44). -/
def planOf (steps : List PlanStep) (commit : Nat) (sources : SourceSet) (reason : Option Source) : Plan :=
  ⟨steps.filter fun q => q.step.guard.holds sources reason, 0, commit⟩

/-- The domains that a list of planned steps ends in ON for (R45). -/
def risingOf (steps : List PlanStep) : DomainSet :=
  setOf allDomains fun d => steps.any fun q => decide (q.step.action.endsOn = some d)

/-- The domains that a list of undo records restores ON for (R72). -/
def undoRisingOf (stack : List UndoRecord) : DomainSet :=
  setOf allDomains fun d => stack.any fun r => decide (r.action.restoresOn = some d)

end Sys2Proof.Machine
end

