-- ==== Sys2Proof/Machine/Members.lean ====
section
/-! DEFINITION. The members of a group: their start, their ends by completion, failure and abandonment, and the run of
the groups of a Plan as far as one event carries it (chapter 3).

An operation that ends members takes and returns what the event has taken out of the Hold Queue; the answers and discards of
those records are made in one pass at the event's end, in queue order (R143). Log entry 30. -/

namespace Sys2Proof.Machine

/-- Replace the running members. -/
def State.withRunning (s : State) (m : List Member) : State := s.withEng { s.eng with running := m }

/-- Replace the Outstanding Order Table. -/
def State.withOrders (s : State) (o : List OrderEntry) : State := s.withEng { s.eng with orders := o }

/-- The steps of the Plan that have not been started. -/
def State.unstarted (s : State) : List PlanStep :=
  match s.eng.plan with
  | none => []
  | some p => p.steps.drop p.started

/-- One more step of the Plan has been started. -/
def countStarted (s : State) : State :=
  s.withEng { s.eng with plan := s.eng.plan.map fun p => { p with started := p.started + 1 } }

/-- An ORDER is sent: a table entry with the next tag, the frame to the Downstream Port, the tag counter advanced
(R50, R51, R73). -/
def sendOrder (d : Domain) (agent : Addr) (target : OrdState) (position : Option Nat) (s : State) : State :=
  queueDown (orderFrame agent s.eng.tag target)
    (s.withEng { s.eng with orders := s.eng.orders ++ [⟨d, agent, s.eng.tag, target, position⟩], tag := s.eng.tag + 1#4 })

/-- Some planned step that ends in ON for the domain has not ended: it runs or has not been started (R46). -/
def State.onEndingLeft (s : State) (d : Domain) : Bool :=
  s.eng.running.any (fun m => decide (m.plan.step.action.endsOn = some d))
  || s.unstarted.any (fun q => decide (q.step.action.endsOn = some d))

/-- The last of a domain's ON-ending steps has ended: the domain leaves the Rising set (R46). Every end of a member comes
here, after its writes, so the domains that left before follow the link state too. -/
def endRising (a : Action) (left : Departed) (s : State) : State × Departed :=
  match a.endsOn with
  | none => (s, left.join 0#12 s)
  | some d => if hasBit s.eng.rising d && !s.onEndingLeft d then leaveRising d left s else (s, left.join 0#12 s)

/-- The member is removed and its timer with it; an ORDER's table entry too (R50, R58). -/
def dropMember (m : Member) (s : State) : State :=
  s.withEng { s.eng with
    running := s.eng.running.filter fun x => decide (x.plan.position ≠ m.plan.position),
    orders := s.eng.orders.filter fun o => decide (o.position ≠ some m.plan.position) }

/-- What a reversible step pushes when it completes (R31, R57). -/
def undoOf (m : Member) : Option UndoRecord :=
  match m.plan.step.action with
  | .order d _ true => some ⟨m.plan.index, .order d m.priorState, m.plan.step.code⟩
  | .line p l _ true => some ⟨m.plan.index, .line (p.map fun x => (x.1, m.priorState)) l m.priorLevel, m.plan.step.code⟩
  | .order _ _ false | .line _ _ _ false | .awaitGood _ _ _ | .delay _ => none

/-- The undo record of a member is pushed while the platform is ENTERING (R57). -/
def pushUndo (m : Member) (s : State) : State :=
  match undoOf m with
  | some r => if s.eng.platform.isEntering then s.withEng { s.eng with undoStack := r :: s.eng.undoStack } else s
  | none => s

/-- A member completes (R57): its state on completion is written (an ORDER's reached state has been), its undo record is
pushed, it ends, and its domain may leave the Rising set. -/
def completeMember (m : Member) (left : Departed) (s : State) : State × Departed :=
  let a := m.plan.step.action
  let s1 := match a.done with
    | some (d, st) => writeDomain d st.toDom s
    | none => s
  endRising a left (dropMember m (pushUndo m s1))

/-- A member fails (R58): the recorded state and the cause are written, it ends, and its domain may leave the Rising set. -/
def failMember (m : Member) (d : Domain) (st : DomState) (c : FaultCause) (left : Departed) (s : State) :
    State × Departed :=
  endRising m.plan.step.action left (dropMember m (writeCause d c (writeDomain d st s)))

/-- A member is abandoned (R59): an ORDER's domain becomes UNKNOWN with no cause written. -/
def abandonMember (p : State × Departed) (m : Member) : State × Departed :=
  let s1 := dropMember m p.1
  let s2 := match m.plan.step.action with
    | .order d _ _ => writeDomain d .unknown s1
    | .line _ _ _ _ | .awaitGood _ _ _ | .delay _ => s1
  endRising m.plan.step.action p.2 s2

/-- Every member still running is abandoned, in position order (R59). Log entry 13. -/
def abandonGroup (left : Departed) (s : State) : State × Departed := s.eng.running.foldl abandonMember (s, left)

/-- The member of a planned step, with what its start captures (R55, R57) and its step timer (R49). -/
def memberOf (q : PlanStep) (s : State) : Member where
  plan := q
  priorState := match q.step.action.domain with
    | some d => s.recorded d
    | none => .unknown
  priorLevel := match q.step.action.enLine with
    | some l => hasBit s.lines.levels l
    | none => false
  timer := startTimer (ticks q.step.code)

/-- The member runs on. -/
def addMember (m : Member) (s : State) : State := s.withRunning (s.eng.running ++ [m])

/-- What the start of a member leaves: the state, the domains that have left the Rising set while not ON, and the cause if
the member failed at its start. -/
structure Started where
  state : State
  left  : Departed
  fault : Option FaultCause
  deriving DecidableEq, Repr

/-- The member fails at its start. -/
def failAtStart (m : Member) (d : Domain) (c : FaultCause) (left : Departed) (s : State) : Started :=
  let p := failMember m d .unknown c left s
  ⟨p.1, p.2, some c⟩

/-- The member completes at its start, or runs on. -/
def completeOrRun (completes : Bool) (m : Member) (left : Departed) (s : State) : Started :=
  if completes then
    let p := completeMember m left s
    ⟨p.1, p.2, none⟩
  else ⟨addMember m s, left, none⟩

/-- The start of a member (R47, R50, R55, R56): it runs on, or ends at its start by completion or by failure. -/
def startMember (q : PlanStep) (left : Departed) (s0 : State) : Started :=
  let m := memberOf q s0
  let s := countStarted s0
  match q.step.action with
  | .order d target _ =>
    match (s.config d).agent with
    | none => failAtStart m d .noAgent left s
    | some agent => ⟨sendOrder d agent target (some q.position) (addMember m s), left, none⟩
  | .line _ l high _ => completeOrRun m.timer.isNone m left (driveLine l high s)
  | .awaitGood d asserted _ =>
    match (s.config d).pgLine with
    | none => failAtStart m d .noLine left s
    | some l => completeOrRun (decide (s.pgLevel l = asserted)) m left s
  | .delay _ => completeOrRun m.timer.isNone m left s

/-- How far the run of a Plan came at one event. -/
inductive Progress where
  /-- A member of the group still runs. -/
  | waiting
  /-- The last group has completed. -/
  | completed
  /-- A group has completed in ENTERING with an abort pending (R48). -/
  | abortAtGroupEnd
  /-- A member failed under ABORT and its group has been abandoned (R59). -/
  | aborted (cause : FaultCause) (index : Nat)
  deriving DecidableEq, Repr

/-- A failure is taken under ABORT: the step's own policy in ENTERING and WAKING, never in FORCING or UNWINDING (R58). -/
def State.takesAbort (s : State) (q : PlanStep) : Bool :=
  match s.eng.platform with
  | .entering _ | .waking _ => decide (q.step.policy = .abort)
  | .working | .rest _ | .unwinding _ | .forcing => false

/-- The group has completed with an abort pending (R48, step 1). -/
def State.abortsAtGroupEnd (s : State) : Bool := s.eng.platform.isEntering && s.eng.abortPending.isSome

/-- What the run of a Plan leaves: the state, the domains that have left the Rising set while not ON, and how far it came. -/
structure Run where
  state    : State
  left     : Departed
  progress : Progress
  deriving DecidableEq, Repr

/-- Start the listed steps: member after member in a group, and the next group where a group has ended at its start
(R47, R48). -/
def runSteps : List PlanStep → Departed → State → Run
  | [], left, s => ⟨s, left, .completed⟩
  | q :: rest, left, s =>
    let x := startMember q left s
    match x.fault.filter fun _ => x.state.takesAbort q with
    | some cause =>
      let p := abandonGroup x.left x.state
      ⟨p.1, p.2, .aborted cause q.index⟩
    | none =>
      if q.step.join && !rest.isEmpty then runSteps rest x.left x.state
      else if !x.state.eng.running.isEmpty then ⟨x.state, x.left, .waiting⟩
      else if x.state.abortsAtGroupEnd then ⟨x.state, x.left, .abortAtGroupEnd⟩
      else runSteps rest x.left x.state

/-- The group completion test at the end of a member (R48). -/
def groupTest (p : State × Departed) : Run :=
  if !p.1.eng.running.isEmpty then ⟨p.1, p.2, .waiting⟩
  else if p.1.abortsAtGroupEnd then ⟨p.1, p.2, .abortAtGroupEnd⟩
  else runSteps p.1.unstarted p.2 p.1

end Sys2Proof.Machine
end

