-- ==== Sys2Proof/Machine/Engine.lean ====
section
/-! DEFINITION. The paths of the Transition Engine from the end of a group on: FORCING and FORCED-OFF, wakes, unwinding,
the end of an entry, and the events that begin FORCING (chapters 3 and 4). -/

namespace Sys2Proof.Machine

/-! ## FORCING and the FORCED-OFF sequence (R78 to R82) -/

/-- The domain of an ORDER undo. -/
def UndoAction.orderDomain : UndoAction → Option Domain
  | .order d _ => some d
  | .line _ _ _ => none

/-- The domain of an ORDER step. -/
def Action.orderDomain : Action → Option Domain
  | .order d _ _ => some d
  | .line _ _ _ _ | .awaitGood _ _ _ | .delay _ => none

/-- The domains of the ORDERs in flight: of the running members, then of the undo (R79). -/
def State.orderedDomains (s : State) : List Domain :=
  s.eng.running.filterMap (fun m => m.plan.step.action.orderDomain)
  ++ s.eng.undo.toList.filterMap (fun u => u.record.action.orderDomain)

/-- Everything that runs is dropped: members, undo, table entries, timers, Plan, Undo Stack, pending abort (R79, R85). -/
def clearWork (s : State) : State :=
  s.withEng { s.eng with
    plan := none, running := [], orders := [], abortPending := none, undoStack := [], undo := none, unwind := none }

/-- The cancellation at the start of FORCING: the domains of ORDERs in flight become UNKNOWN, no cause is written (R79). -/
def cancelRunning (s : State) : State :=
  s.orderedDomains.foldl (fun s d => writeDomain d .unknown s) (clearWork s)

/-- The REPORT of a forced shutdown (R66, R81). -/
def forcedReport (s : State) : Report :=
  let c := s.eng.forcingCause.getD ⟨.noCause, none, none⟩
  ⟨c.sequence, .forced, c.cause, c.failing, none, s.unknownSet⟩

/-- SOFTOFF is reached: the platform state, the Wake Arm, the Armed set for SOFTOFF and the sleep-duration counter
(R81, steps 1 to 3). -/
def reachSoftoff (s : State) : State :=
  let s1 := s.withEng { s.eng with platform := .rest .softoff, plan := none }
  startSleepCount (computeArmed .softoff (setArm s1))

/-- The REPORT of the forced shutdown is made and the forcing cause is absent again (R81, step 4). -/
def reportForced (s : State) : State :=
  let s1 := makeReport (forcedReport s) s
  s1.withEng { s1.eng with forcingCause := none }

/-- The last group of FORCED-OFF has completed (R81). -/
def forcedOffEnd (s : State) : State := reportForced (reachSoftoff s)

/-- The direct safe-level load (R82). -/
def directSafeLoad (s : State) : State := reportForced (reachSoftoff (allDomainsOff (driveSafe s)))

/-- FORCED-OFF runs as far as this event carries it. -/
def settleForcing (r : Run) : State × Departed :=
  match r.progress with
  | .completed => (forcedOffEnd r.state, r.left)
  | .waiting | .abortAtGroupEnd | .aborted _ _ => (r.state, r.left)

/-- The start of FORCED-OFF, or the direct load in its place (R80). -/
def startForcedOff (s : State) : State × Departed :=
  match checkSequence s 6 with
  | .error _ => (directSafeLoad s, .start s)
  | .ok steps =>
    let plan := planOf steps (s.dirEntry 6).commit 0#16 none
    settleForcing (runSteps plan.steps (.start s) (s.withEng { s.eng with plan := some plan }))

/-- The sleep-duration counter stops where FORCING leaves a rest state (R123). -/
def stopIfRest (s : State) : State := if s.eng.platform.isRest then stopSleepCount s else s

/-- FORCING begins with a cause: the cause is written, what runs is cancelled, the Rising set is emptied, every held DOWN
record leaves, the permit and the Wake Arm are cleared, and FORCED-OFF starts (R78, R79, R80, R149). Records that left
earlier at this event meet the end fixed then, in the same pass; no DOWN record is left for a later one (R143). -/
def beginForcing (cause : ForcingCause) (left : Departed) (s : State) : State × Departed :=
  let s1 := cancelRunning (stopIfRest (s.withEng { s.eng with forcingCause := some cause }))
  let s2 := (s1.withPlatform .forcing).withRising 0#12
  startForcedOff (disarm ((dropAllDown left s2).withPermit false))

/-! ## Wakes (R63 to R65, R102 to R104) -/

/-- The RESUME notice (R64, R169). -/
def resumeNotice (c : WakeContext) (generation : BitVec 16) (faults : DomainSet) : Frame :=
  noticeFrame .resume ([byteOf c.fromState.stateCode, c.reason.code] ++ bytes16 c.latch ++ bytes16 c.armed
    ++ bytes16 generation ++ bytes24 c.sleepDuration ++ bytes12 faults)

/-- The RESUME is queued if the link is UP; the Wake Context is the one of the wake that completes (R64). -/
def sendResume (s : State) : State :=
  match s.wake.context with
  | some c => queueUp (resumeNotice c s.wake.generation s.railFaultSet) s
  | none => s

/-- A wake sequence has completed: the resume check, then WORKING or FORCING (R64, R65). -/
def wakeEnd (f : Sleep) (left : Departed) (s : State) : State × Departed :=
  if s.resumeCheck then
    let p := replaceRising 0#12 left (s.withEng { s.eng with platform := .working, plan := none })
    let s1 := recordReport ⟨some (3 + f.code), .completed, .noCause, none, none, p.1.unknownSet⟩ p.1
    (permitAtWake (sendResume s1), p.2)
  else beginForcing ⟨.resumeCheck, some (3 + f.code), none⟩ left s

/-- The cause that a step failure is in a REPORT (R66). -/
def FaultCause.inReport : FaultCause → ReportCause
  | .stepTimeout => .stepTimeout
  | .stateMismatch => .stateMismatch
  | .noAgent => .noAgent
  | .noLine => .noLine
  | .pgLost => .railFault

/-- A wake sequence runs as far as this event carries it (R61, R64). -/
def settleWaking (f : Sleep) (r : Run) : State × Departed :=
  match r.progress with
  | .completed => wakeEnd f r.left r.state
  | .aborted c i => beginForcing ⟨c.inReport, some (3 + f.code), some i⟩ r.left r.state
  | .waiting | .abortAtGroupEnd => (r.state, r.left)

/-- The Wake Context is captured (R104). -/
def captureContext (f : Sleep) (reason : WakeReason) (s : State) : State :=
  s.withWake { s.wake with context := some ⟨f, reason, s.wake.latch, s.wake.armed, s.qual.sleepCount⟩ }

/-- OFF-WAKE is refused: an INVALID REPORT, and the part is armed again (R63, R123). -/
def refuseOffWake (failing : Option Nat) (s : State) : State :=
  let s1 := makeReport ⟨some 5, .invalid, .badSequence, failing, none, s.unknownSet⟩ s
  resumeSleepCount (computeArmed .softoff (setArm s1))

/-- A wake is accepted with a reason in a sleep state (R102, R63). Where STANDBY-WAKE or HIBERNATE-WAKE is refused, the forcing
cause carries the sequence index 3 or 4, as R63 says; R78 and R66 speak of an absent index in a rest state. DESIGN
CHOICE, log entry 32. -/
def acceptWake (f : Sleep) (reason : WakeReason) (left : Departed) (s : State) : State × Departed :=
  let armed := s.wake.armed
  let s1 := stopSleepCount (disarm (captureContext f reason s))
  match checkSequence s1 (3 + f.code) with
  | .ok steps =>
    let plan := planOf steps (s1.dirEntry (3 + f.code)).commit armed reason.asSource
    settleWaking f (runSteps plan.steps left
      (s1.withEng { s1.eng with platform := .waking f, plan := some plan, rising := risingOf plan.steps }))
  | .error e =>
    match f with
    | .softoff => (refuseOffWake e.index s1, left)
    | .standby | .hibernate => beginForcing ⟨.badSequence, some (3 + f.code), e.index⟩ left s1

/-- A wake is accepted on a latch: the lowest-numbered source both latched and armed is its reason (R103). -/
def acceptLatched (f : Sleep) (left : Departed) (s : State) : State × Departed :=
  match lowest (s.wake.latch &&& s.wake.armed) with
  | some x => acceptWake f (.source x) left s
  | none => (s, left)

/-! ## Unwinding (R72 to R76) -/

/-- Replace the undo in flight and the Undo Stack. -/
def State.withUndo (s : State) (u : Option UndoRun) (stack : List UndoRecord) : State :=
  s.withEng { s.eng with undo := u, undoStack := stack }

/-- Unwinding ends (R76). -/
def unwindEnd (left : Departed) (s : State) : State × Departed :=
  let info := s.eng.unwind.getD ⟨.noCause, none, none⟩
  let p := replaceRising 0#12 left (s.withEng { s.eng with
    platform := .working, undoStack := [], undo := none, unwind := none })
  (makeReport ⟨s.eng.platform.sequence, .aborted, info.cause, info.failing, info.source, p.1.unknownSet⟩ p.1, p.2)

/-- The record's domain leaves the unwinding Rising set if no record left on the stack restores ON for it (R76, step 1). -/
def undoLeavesRising (a : UndoAction) (stack : List UndoRecord) (left : Departed) (s : State) : State × Departed :=
  match a.domain with
  | none => (s, left.join 0#12 s)
  | some d =>
    if hasBit s.eng.rising d && !stack.any (fun r => decide (r.action.restoresOn = some d)) then leaveRising d left s
    else (s, left.join 0#12 s)

/-- The target of an undo ORDER: the prior state, or ON where that was UNKNOWN (R73). -/
def undoTarget : DomState → OrdState
  | .on | .unknown => .on
  | .idle => .idle
  | .retain => .retain
  | .off => .off

/-- A LINE undo completes: the prior state of its domain is written (R75). -/
def undoLineDone (a : UndoAction) (s : State) : State :=
  match a with
  | .line (some (d, prior)) _ _ => writeDomain d prior s
  | .line none _ _ | .order _ _ => s

/-- Records are popped and undone, top first, until one runs on or the stack is empty (R73, R75, R76). The held records of
the domains that have left the Rising set meet the end that the link state gave when their domain left, before the pops that
followed (R72 steps 4 and 5, R76 steps 1 and 2). The branch of an ORDER with no agent is reached in no run: the step that
pushed the record had one (R73). -/
def unwindFrom : List UndoRecord → Departed → State → State × Departed
  | [], left, s => unwindEnd left s
  | r :: rest, left, s0 =>
    let s := s0.withUndo none rest
    match r.action with
    | .order d prior =>
      match (s.config d).agent with
      | some agent =>
        (sendOrder d agent (undoTarget prior) none (s.withUndo (some ⟨r, startTimer (ticks r.code)⟩) rest), left)
      | none =>
        let p := undoLeavesRising r.action rest left (writeCause d .noAgent (writeDomain d .unknown s))
        unwindFrom rest p.2 p.1
    | .line _ l high =>
      let s1 := driveLine l high s
      if startTimer (ticks r.code) = none then
        let p := undoLeavesRising r.action rest left (undoLineDone r.action s1)
        unwindFrom rest p.2 p.1
      else (s1.withUndo (some ⟨r, startTimer (ticks r.code)⟩) rest, left)

/-- Unwinding begins (R72). -/
def beginUnwinding (t : Sleep) (info : UnwindInfo) (left : Departed) (s : State) : State × Departed :=
  let s1 := emptyArmed (s.withEng { s.eng with
    platform := .unwinding t, plan := none, abortPending := none, unwind := some info })
  let p := replaceRising (undoRisingOf s1.eng.undoStack) left s1
  unwindFrom s1.eng.undoStack p.2 p.1

/-- The undo in flight has ended: its entry and timer are gone, and the next record is popped (R74, R76). -/
def undoEnded (u : UndoRun) (s : State) : State × Departed :=
  let s1 := s.withEng { s.eng with
    undo := none, orders := s.eng.orders.filter fun o => decide (o.position ≠ none) }
  let p := undoLeavesRising u.record.action s1.eng.undoStack (.start s1) s1
  unwindFrom s1.eng.undoStack p.2 p.1

/-! ## The end of an entry, and of any group (R48, R60 to R62) -/

/-- The last group of an entry has completed with no abort pending (R62). Step 6 takes any armed source that is latched, as
R101 says. R114 says that the sleep after an entry makes no wake of a level source latched and active before the Wake Arm was
set, only its next latch event does; where such a source is in the Armed set the rules disagree, and the model follows R62
step 6 and R101. DESIGN CHOICE, log entry 40. -/
def entryEnd (t : Sleep) (left : Departed) (s : State) : State × Departed :=
  let p := replaceRising 0#12 left (s.withEng { s.eng with platform := .rest t, plan := none })
  let s1 := startSleepCount (setArm (p.1.withEng { p.1.eng with undoStack := [] }))
  acceptLatched t p.2 (makeReport ⟨some t.code, .completed, .noCause, none, none, s1.unknownSet⟩ s1)

/-- The running sequence goes on from where a group's run came to (R48, R60, R61). -/
def settle (r : Run) : State × Departed :=
  let s := r.state
  match r.progress with
  | .waiting => (s, r.left)
  | .completed =>
    match s.eng.platform with
    | .entering t => entryEnd t r.left s
    | .waking f => wakeEnd f r.left s
    | .forcing => (forcedOffEnd s, r.left)
    | .working | .rest _ | .unwinding _ => (s, r.left)
  | .abortAtGroupEnd =>
    match s.eng.platform with
    | .entering t => beginUnwinding t ⟨.wake, none, s.eng.abortPending⟩ r.left s
    | .working | .rest _ | .unwinding _ | .waking _ | .forcing => (s, r.left)
  | .aborted c i =>
    match s.eng.platform with
    | .entering t => beginUnwinding t ⟨c.inReport, some i, s.eng.abortPending⟩ r.left s
    | .waking f => beginForcing ⟨c.inReport, some (3 + f.code), some i⟩ r.left s
    | .working | .rest _ | .unwinding _ | .forcing => (s, r.left)

/-- A member completes, and its group may (R57, R48). -/
def memberCompleted (m : Member) (s : State) : State × Departed := settle (groupTest (completeMember m (.start s) s))

/-- A member fails, and the failure is taken under its policy (R58, R59). -/
def memberFailed (m : Member) (d : Domain) (st : DomState) (c : FaultCause) (s : State) : State × Departed :=
  let p := failMember m d st c (.start s) s
  if p.1.takesAbort m.plan then
    let g := abandonGroup p.2 p.1
    settle ⟨g.1, g.2, .aborted c m.plan.index⟩
  else settle (groupTest p)

/-! ## The override event and the rail-fault event (R11, R119, R155) -/

/-- The event is kept for the end of the loading; the first one kept stays (R11). -/
def deferForcing (cause : ReportCause) (s : State) : State :=
  match s.ldr.loading with
  | some l =>
    s.withLdr { s.ldr with loading := some { l with deferred := some (l.deferred.getD cause) } }
  | none => s

/-- The Engine takes an override or rail-fault event against the platform state (R119, R155). -/
def forcingEvent (cause : ReportCause) (left : Departed) (s : State) : State × Departed :=
  match s.eng.platform with
  | .forcing | .rest .softoff => (s, left)
  | .working => if s.isLoading then (deferForcing cause s, left) else beginForcing ⟨cause, none, none⟩ left s
  | .rest .standby | .rest .hibernate | .entering _ | .unwinding _ | .waking _ =>
    beginForcing ⟨cause, s.eng.platform.sequence, none⟩ left s

end Sys2Proof.Machine
end

