-- ==== Sys2Proof/Machine/Wake.lean ====
section
/-! DEFINITION. Latch events: the Wake Latch, the Storm Monitor and the armed latch (chapter 5), and the level-mode lines
that latch again after a clear (R114). -/

namespace Sys2Proof.Machine

/-- Step 1 of a latch event: the bit, the generation and the EVENT SOURCE notice (R91, R93, R95). -/
def latchBit (src : Source) (s : State) : State :=
  if hasBit s.wake.latch src then s
  else
    let g := s.wake.generation + 1#16
    queueUp (sourceNotice src g) (s.withWake { s.wake with latch := setBit s.wake.latch src, generation := g })

/-- A source is suppressed: its count is held at the threshold, it leaves the Armed set, and EVENT STORM is made (R108). -/
def suppress (src : Source) (s : State) : State :=
  queueUp (stormNotice src) (s.withWake { s.wake with
    suppressed := setBit s.wake.suppressed src,
    armed := clearBit s.wake.armed src,
    stormCount := s.wake.stormCount.set src s.wake.threshold })

/-- Step 2 of a latch event: the Storm Monitor counts it and may suppress the source (R107, R108). -/
def stormStep (src : Source) (s : State) : State :=
  if s.stormCounts src then
    if s.wake.threshold ≤ s.wake.stormCount[src] + 1 then suppress src s
    else s.withWake { s.wake with stormCount := s.wake.stormCount.set src (s.wake.stormCount[src] + 1) }
  else s

/-- An armed latch (R100): a wake in a sleep state, a pending abort in ENTERING before the commit point (R68). -/
def armedLatch (src : Source) (left : Departed) (s : State) : State × Departed :=
  match s.eng.platform with
  | .rest f => if s.wake.arm then acceptLatched f left s else (s, left)
  | .entering _ =>
    if s.eng.abortPending.isNone && !s.commitReached then (s.withEng { s.eng with abortPending := some src }, left)
    else (s, left)
  | .working | .unwinding _ | .waking _ | .forcing => (s, left)

/-- Step 3 of a latch event: is it an armed latch? (R91) -/
def armStep (src : Source) (left : Departed) (s : State) : State × Departed :=
  if hasBit s.wake.armed src then armedLatch src left s else (s, left)

/-- A latch event of a source (R91), with what the event has taken out of the Hold Queue so far. -/
def latchFrom (src : Source) (p : State × Departed) : State × Departed := armStep src p.2 (stormStep src (latchBit src p.1))

/-- A latch event of a source with which an event's work begins. -/
def latchEvent (src : Source) (s : State) : State × Departed := latchFrom src (s, .start s)

/-- The level-mode lines whose bit has just been cleared and whose level is active latch again (R114). Where one CLEAR or
UNCONDITIONAL GO clears several, R42, R91 and R114 give their latch events no order; they are taken from WL0 up, which
decides the source that a pending abort holds (R68). DESIGN CHOICE, log entry 38. -/
def relatch (cleared : SourceSet) (p : State × Departed) : State × Departed :=
  allWakeLines.foldl
    (fun p k => if hasBit cleared (lineSource k) && (p.1.qual.lines[k]).active then latchFrom (lineSource k) p else p) p

end Sys2Proof.Machine
end

