-- ==== Sys2Proof/Machine/Monitor.lean ====
section
/-! DEFINITION. The Rail Monitor's test and what a latched rail fault does (chapter 9). -/

namespace Sys2Proof.Machine

/-- Replace the fault field of a domain. -/
def writeFault (d : Domain) (x : RailFault) (s : State) : State :=
  s.withStatus d { s.dom.status[d] with fault := x }

/-- A rail fault is latched (R153): the field, the cause, then the policy (R154, R155). -/
def latchRail (d : Domain) (p : State × Departed) : State × Departed :=
  let s1 := writeCause d .pgLost (writeFault d .latched p.1)
  match (p.1.config d).policy with
  | .report => (queueUp (railNotice d) s1, p.2)
  | .shutdown => forcingEvent .railFault p.2 s1

/-- Latch for the lowest-numbered domain that the test finds faulty, up to n times. Each domain is tested after the latch
before it has been acted on: R153 takes two domains of one event "in index order, each whole" and does not say whether
the second's conditions are read before or after the FORCING of the first. DESIGN CHOICE, log entry 35. -/
def monitorFrom : Nat → State × Departed → State × Departed
  | 0, p => p
  | n + 1, p =>
    match allDomains.find? p.1.railFaulty with
    | some d => monitorFrom n (latchRail d p)
    | none => p

/-- The end of an event: the Monitor's test, domains in index order (R152, R153), then the one pass over the records that
the event has taken out of the Hold Queue (R143). A latch leaves its domain with no further latch to make, so twelve rounds
reach the end. Log entries 9 and 30. -/
def endEvent (p : State × Departed) : State :=
  let q := monitorFrom 12 p
  reclassify q.2 q.1

/-- The end of an event that has taken no record out of the Hold Queue. -/
def monitor (s : State) : State := endEvent (s, .start s)

/-- The effect of a CLEAR on a domain it names, before the Monitor's test (R157). -/
def clearRail (d : Domain) (s : State) : State :=
  let x := s.dom.status[d]
  let b := startTimer (ticks (s.config d).blanking)
  match x.fault with
  | .noFault => s
  | .latched | .qualifying =>
    s.withStatus d { x with fault := if b = none then .noFault else .qualifying, blanking := b }

end Sys2Proof.Machine
end

