-- ==== Sys2Proof/Machine/Requests.lean ====
section
/-! DEFINITION. How the Management Unit takes a request and answers it, and the SET objects: for each selector the check
of a payload and the write that an accepted one makes. The Configuration Loader applies its records with the same checks
and writes (sections 10.5, 11.3). -/

namespace Sys2Proof.Machine

/-! ## Taking and answering (R162, R165, R166) -/

/-- The request at the head of the Upstream Port input FIFO, if the Management Unit may take it now. -/
def State.request (s : State) : Option Frame :=
  if s.dom.linkUp && !s.isLoading && s.mgmt.serving.isNone && decide (s.up.own.length < 24) then
    match s.up.input with
    | f :: _ => if routeUp f = .management then some f else none
    | [] => none
  else none

/-- The request, if it is of a kind and names a selector. -/
def State.requestFor (s : State) (k : Kind) (selector : Byte) : Option Frame :=
  s.request.filter fun f => decide (f.kind = k) && decide (f.payload.head? = some selector)

/-- The head of the Upstream Port input FIFO leaves it. -/
def popUp (s : State) : State := s.withUp { s.up with input := s.up.input.tail }

/-- A request is answered with a result code and, for a GET answered OK, its data (R166). -/
def answer (f : Frame) (code : ResultCode) (data : List Byte) (s : State) : State :=
  queueResult (resultFrame f.tag code data) s

/-- A GET of a selector: the data it returns, or the result it is refused with. It writes no state but the two FIFOs. -/
def serveGet (selector : Byte) (data : State → List Byte → Except ResultCode (List Byte)) (s : State) : State :=
  match s.requestFor .get selector with
  | none => s
  | some f =>
    match data s f.payload with
    | .ok bytes => answer f .ok bytes (popUp s)
    | .error code => answer f code [] (popUp s)

/-- A SET of a selector: BUSY in a transitional state, then the object's check, then the RESULT and the write, the RESULT
first in the queue (R165, R166). -/
def serveSet {α : Type} (selector : Byte) (check : State → List Byte → Except ResultCode α) (write : α → State → State)
    (s : State) : State :=
  match s.requestFor .set selector with
  | none => s
  | some f =>
    if s.eng.platform.transitional then answer f .busy [] (popUp s)
    else
      match check s f.payload with
      | .ok w => write w (answer f .ok [] (popUp s))
      | .error code => answer f code [] (popUp s)

/-- A CLEAR of a selector: BAD-KIND unless the payload is 3 bytes, then the RESULT and the effect (R168). -/
def serveClear (selector : Byte) (effect : BitVec 16 → State → State) (s : State) : State :=
  match s.requestFor .clear selector with
  | none => s
  | some f =>
    match f.payload with
    | [_, hi, lo] => effect (word16 hi lo) (answer f .ok [] (popUp s))
    | _ => answer f .badKind [] (popUp s)

/-! ## The SET objects -/

/-- What an accepted SET writes. -/
inductive SetWrite where
  | steps (first : Nat) (records : List StepRecord)
  | directory (first : Nat) (entries : List DirEntry)
  | domains (first : Nat) (records : List DomainConfig) (controller : Domain)
  | agents (first : Nat) (entries : List (Option Domain))
  | matches (first : Nat) (entries : List MatchEntry)
  | wakeSettings (enable standby hibernate softoff : SourceSet) (threshold : Nat) (window : TimeCode)
  | lineQualifiers (first : Nat) (settings : List (LineMode × TimeCode))
  | buttonSettings (pressMinimum override : TimeCode) (afterLoss : AfterLoss)
  | wakeTimer (count : Nat)
  | safeLevels (levels : Levels)
  | retained (pointer : Nat) (bytes : List Byte)
  deriving DecidableEq, Repr

/-- The check of an object whose items are each decoded alone. -/
def checkItems {α : Type} (size limit lowest highest : Nat) (decode : List Byte → Option α)
    (write : Nat → List α → SetWrite) (payload : List Byte) : Except ResultCode SetWrite :=
  match setItems size limit lowest highest payload with
  | .error code => .error code
  | .ok (first, items) =>
    match decodeAll decode items with
    | some values => .ok (write first values)
    | none => .error .badEntry

/-- Step Store (R26, R29). -/
def checkSteps (_ : State) (payload : List Byte) : Except ResultCode SetWrite :=
  checkItems 8 3 0 127 stepOfBytes .steps payload

/-- Sequence Directory (R23). -/
def checkDirectory (_ : State) (payload : List Byte) : Except ResultCode SetWrite :=
  checkItems 3 7 0 6 dirOfBytes .directory payload

/-- No two records name the same agent (R13). -/
def agentsDistinct (v : Vector DomainConfig 12) : Bool :=
  allDomains.all fun d => allDomains.all fun e =>
    decide (d = e) || v[d].agent.isNone || decide (v[d].agent ≠ v[e].agent)

/-- The domain that holds the controller flag after records are written from index `first`, or none where no domain would
(R14): the highest-numbered record with controller 1, or the present holder if its record is not written. -/
def controllerAfter (holder : Domain) (first : Nat) (records : List DomainWrite) : Option Domain :=
  match allDomains.reverse.find? fun d =>
      decide (first ≤ d.val) && (records[d.val - first]?).any DomainWrite.controller with
  | some d => some d
  | none => if first ≤ holder.val ∧ holder.val < first + records.length then none else some holder

/-- Domain configuration records (R13, R14). -/
def checkDomains (s : State) (payload : List Byte) : Except ResultCode SetWrite :=
  match setItems 4 7 0 11 payload with
  | .error code => .error code
  | .ok (first, items) =>
    match decodeAll domainOfBytes items with
    | none => .error .badEntry
    | some records =>
      let configs := records.map DomainWrite.config
      match controllerAfter s.dom.controller first records with
      | none => .error .badEntry
      | some holder =>
        if agentsDistinct (writeFrom s.dom.config first configs) = false then .error .badEntry
        else if s.dom.linkUp ∧ holder ≠ s.dom.controller ∧ s.recorded holder ≠ .on then .error .badEntry
        else .ok (.domains first configs holder)

/-- Agent Map (R18). -/
def checkAgents (_ : State) (payload : List Byte) : Except ResultCode SetWrite :=
  checkItems 1 29 1 62 agentMapOfBytes .agents payload

/-- Wake Match Table (R126). -/
def checkMatches (_ : State) (payload : List Byte) : Except ResultCode SetWrite :=
  checkItems 15 1 0 23 matchOfBytes .matches payload

/-- Wake settings: source 0 is held, a threshold of 0 is held at 1 (R96, R97, R106). -/
def checkWakeSettings (_ : State) (payload : List Byte) : Except ResultCode SetWrite :=
  match payload with
  | [_, e1, e0, s1, s0, h1, h0, o1, o0, t, w] =>
    .ok (.wakeSettings (setBit (word16 e1 e0) 0) (clearBit (word16 s1 s0) 0) (clearBit (word16 h1 h0) 0)
      (clearBit (word16 o1 o0) 0) (max 1 t.toNat) w)
  | _ => .error .badKind

/-- Line Qualifiers (R111, R115). -/
def checkLines (_ : State) (payload : List Byte) : Except ResultCode SetWrite :=
  checkItems 2 8 0 7 lineOfBytes .lineQualifiers payload

/-- Button and power settings. -/
def checkButton (_ : State) (payload : List Byte) : Except ResultCode SetWrite :=
  match payload with
  | [_, p, o, a] =>
    if a = 0#8 then .ok (.buttonSettings p o .stayOff)
    else if a = 1#8 then .ok (.buttonSettings p o .powerOn) else .error .badEntry
  | _ => .error .badKind

/-- Wake Timer: a value above 16,777,215 is clamped (R121). -/
def checkWakeTimer (_ : State) (payload : List Byte) : Except ResultCode SetWrite :=
  match payload with
  | [_, a, b, c, d] => .ok (.wakeTimer (min 16777215 (word32 a b c d).toNat))
  | _ => .error .badKind

/-- Safe levels (R83). -/
def checkSafeLevels (_ : State) (payload : List Byte) : Except ResultCode SetWrite :=
  match payload with
  | [_, hi, lo] => .ok (.safeLevels (word16 hi lo))
  | _ => .error .badKind

/-- Retained Resume Area: any start address, taken modulo 64; the count alone is bounded, so the range test is made
against a bound that no start and count reach (R172). -/
def checkRetained (_ : State) (payload : List Byte) : Except ResultCode SetWrite :=
  match setItems 1 29 0 511 payload with
  | .error code => .error code
  | .ok (first, _) => .ok (.retained (first % 64) (payload.drop 3))

/-! ## The writes -/

/-- The window timer runs on from a write of the settings, but not while a power-on loading holds it stopped
(R106, R174). Log entry 19. -/
def restartWindow (window : TimeCode) (s : State) : Option Nat :=
  if s.ldr.loading.any (fun l => !l.byReinit) then none else startTimer (ticks window)

/-- The storm counts of the sources outside the Suppressed set return to 0 (R106). -/
def WakeUnit.clearedCounts (w : WakeUnit) : Vector Nat 16 :=
  Vector.ofFn fun src => if hasBit w.suppressed src then w.stormCount[src] else 0

/-- The Armed set follows a change of the Wake settings or of the Suppressed set in a sleep state (R98). -/
def rearmAtRest (s : State) : State :=
  match s.eng.platform with
  | .rest f => if s.isLoading then s else computeArmed f s
  | .working | .entering _ | .unwinding _ | .waking _ | .forcing => s

/-- One Line Qualifier is written: mode, filter code, the qualification that a write of the filter code ends, and the
latch event of a level mode whose level is active (R112, R115). -/
def writeLine (k : WakeLine) (mode : LineMode) (code : TimeCode) (p : State × Departed) : State × Departed :=
  let s := p.1
  let q := s.qual.lines[k]
  let keep := Config.sameFilterCodeKeepsQualification && decide (code = q.filter)
  let q' : LineQualifier := { q with mode := mode, filter := code, qualifying := if keep then q.qualifying else none }
  let s1 := s.withQual { s.qual with lines := s.qual.lines.set k q' }
  if q'.active then latchFrom (lineSource k) (s1, p.2) else (s1, p.2)

/-- Consecutive Line Qualifiers are written in index order, which is also the order of the latch events that they make:
DESIGN CHOICE, log entry 38. -/
def writeLines (first : Nat) : List (LineMode × TimeCode) → State × Departed → State × Departed
  | [], p => p
  | (mode, code) :: rest, p =>
    writeLines (first + 1) rest (if h : first < 8 then writeLine ⟨first, h⟩ mode code p else p)

/-- Domain configuration records are written, and the controller flag with them (R13, R14, R19). -/
def writeDomains (first : Nat) (configs : List DomainConfig) (holder : Domain) (s : State) : State :=
  let s1 := s.withDom { s.dom with config := writeFrom s.dom.config first configs, controller := holder }
  if holder = s.dom.controller then s1 else recomputeLink s1

/-- The Wake settings are written (R96, R97, R106). -/
def writeWakeSettings (enable standby hibernate softoff : SourceSet) (threshold : Nat) (window : TimeCode) (s : State) :
    State :=
  let changed := decide (threshold ≠ s.wake.threshold ∨ window ≠ s.wake.window)
  rearmAtRest (s.withWake { s.wake with
    enable := enable, maskStandby := standby, maskHibernate := hibernate, maskSoftoff := softoff,
    threshold := threshold, window := window,
    stormCount := if changed then s.wake.clearedCounts else s.wake.stormCount,
    windowTimer := if changed then restartWindow window s else s.wake.windowTimer })

/-- An accepted SET, or a record of the image, writes its object; a level mode among Line Qualifiers may latch. -/
def applyWrite (w : SetWrite) (s : State) : State × Departed :=
  let done (t : State) := (t, Departed.start s)
  match w with
  | .steps first records => done (s.withEng { s.eng with store := writeFrom s.eng.store first records })
  | .directory first entries => done (s.withEng { s.eng with directory := writeFrom s.eng.directory first entries })
  | .domains first configs holder => done (writeDomains first configs holder s)
  | .agents first entries => done (s.withDom { s.dom with agentMap := writeFrom s.dom.agentMap (first - 1) entries })
  | .matches first entries => done (s.withMatcher { s.matcher with table := writeFrom s.matcher.table first entries })
  | .wakeSettings e a b c threshold window => done (writeWakeSettings e a b c threshold window s)
  | .lineQualifiers first settings => writeLines first settings (done s)
  | .buttonSettings p o a =>
    done (s.withQual { s.qual with button := { s.qual.button with pressMinimum := p, override := o }, afterLoss := a })
  | .wakeTimer count => done (s.withQual { s.qual with wakeTimer := count })
  | .safeLevels levels => done (s.withLines { s.lines with safe := levels })
  | .retained pointer bytes =>
    done (s.withMgmt { s.mgmt with retained := Memory.writeBytes s.mgmt.retained pointer bytes })

/-- The write can change what the Monitor tests: a domain record by itself, a level mode through the wake that its latch may
start (R159). -/
def SetWrite.tested : SetWrite → Bool
  | .domains _ _ _ | .lineQualifiers _ _ => true
  | .steps _ _ | .directory _ _ | .agents _ _ | .matches _ _ | .wakeSettings _ _ _ _ _ _ | .buttonSettings _ _ _
  | .wakeTimer _ | .safeLevels _ | .retained _ _ => false

/-- An object is written, and the Monitor makes its test once that work of the event is done (R152, R159). -/
def writeAndTest (w : SetWrite) (s : State) : State :=
  if w.tested then endEvent (applyWrite w s) else (applyWrite w s).1

end Sys2Proof.Machine
end

