-- ==== Sys2Proof/Machine/ClearCommands.lean ====
section
/-! DEFINITION. The CLEAR commands and the request whose selector its kind does not take (R166, R168). -/

namespace Sys2Proof.Machine

/-- The named sources leave the Wake Latch, and active level-mode lines among them latch again (R94, R114). -/
def clearLatch (named : SourceSet) (s : State) : State :=
  let s1 := s.withWake { s.wake with latch := diff s.wake.latch named }
  endEvent (relatch (s.wake.latch &&& named) (s1, .start s1))

/-- CLEAR_WAKE_LATCH (R94). -/
def execClearWakeLatch (s : State) : Host.Outcome State Fault Refusal :=
  .next (serveClear 0x08#8 clearLatch s)

/-- The Armed set after a CLEAR that removes sources from the Suppressed set (R98). -/
def rearmAfterClear (s : State) : State :=
  match s.eng.platform with
  | .entering t => computeArmed t s
  | .rest _ | .working | .unwinding _ | .waking _ | .forcing => rearmAtRest s

/-- The named suppressed sources leave the Suppressed set and their counts return to 0 (R109). -/
def clearSuppression (named : SourceSet) (s : State) : State :=
  let gone := s.wake.suppressed &&& named
  if gone = 0#16 then s
  else rearmAfterClear (s.withWake { s.wake with
    suppressed := diff s.wake.suppressed named,
    stormCount := Vector.ofFn fun src => if hasBit gone src then 0 else s.wake.stormCount[src] })

/-- CLEAR_SUPPRESSED (R109). -/
def execClearSuppressed (s : State) : Host.Outcome State Fault Refusal :=
  .next (serveClear 0x20#8 clearSuppression s)

/-- The named domains' rail faults are cleared, then the Monitor makes its test (R157); bits 12 to 15 are not read. -/
def clearRails (named : BitVec 16) (s : State) : State :=
  monitor ((allDomains.filter fun d => named.getLsbD d.val).foldl (fun s d => clearRail d s) s)

/-- CLEAR_RAIL_FAULTS (R157). -/
def execClearRailFaults (s : State) : Host.Outcome State Fault Refusal :=
  .next (serveClear 0x21#8 clearRails s)

/-- The named counters return to 0; bits 6 to 15 are not read (R168). -/
def clearCounters (named : BitVec 16) (s : State) : State :=
  let c := s.mgmt.counters
  let keep (i n : Nat) : Nat := if named.getLsbD i then 0 else n
  s.withCounters ⟨keep 0 c.frameErrorsUp, keep 1 c.frameErrorsDown, keep 2 c.discarded, keep 3 c.stray, keep 4 c.late,
    keep 5 c.holdOverflow⟩

/-- CLEAR_COUNTERS (R170). -/
def execClearCounters (s : State) : Host.Outcome State Fault Refusal :=
  .next (serveClear 0x13#8 clearCounters s)

/-- The selectors that a kind of request takes (R167, R168). -/
def takesSelector (k : Kind) (selector : Byte) : Bool :=
  match k with
  | .set => decide (selector ∈ [0x01#8, 0x02#8, 0x03#8, 0x05#8, 0x06#8, 0x07#8, 0x0B#8, 0x0C#8, 0x0D#8, 0x0E#8, 0x14#8,
      0x16#8])
  | .get => decide (0x01#8 ≤ selector ∧ selector ≤ 0x15#8)
  | .clear => decide (selector ∈ [0x08#8, 0x13#8, 0x20#8, 0x21#8])
  | .note | .ask | .answer | .order | .orderDone | .alert | .go | .result | .event | .report | .resume => true

/-- The object of a selector: the bytes of an item, and whether a request names items by first index and count. A selector of
no row has none (R167). -/
def objectItems (selector : Byte) : Option (Nat × Bool) :=
  match selector.toNat with
  | 0x01 => some (8, true) | 0x02 => some (3, true) | 0x03 => some (4, true) | 0x04 => some (2, true)
  | 0x05 => some (1, true) | 0x06 => some (15, true) | 0x07 => some (10, false) | 0x08 => some (9, false)
  | 0x09 => some (15, false) | 0x0A => some (10, false) | 0x0B => some (2, true) | 0x0C => some (3, false)
  | 0x0D => some (4, false) | 0x0E => some (2, false) | 0x0F => some (11, false) | 0x10 => some (8, false)
  | 0x11 => some (5, true) | 0x12 => some (2, false) | 0x13 => some (6, false) | 0x14 => some (1, true)
  | 0x15 => some (1, false) | 0x16 => some (0, false) | _ => none

/-- The length test of R166: too short for the selector, and the index and count that it calls for, or another length than
they imply. A SET carries the items, a GET none, a CLEAR two bytes (R167, R168). Log entry 15. -/
def badLength (k : Kind) : List Byte → Bool
  | [] => true
  | selector :: rest =>
    if k = .clear then decide (rest.length ≠ 2)
    else
      match objectItems selector, rest with
      | none, _ => false
      | some (_, true), [] | some (_, true), [_] => true
      | some (size, true), _ :: count :: data => decide (data.length ≠ if k = .set then size * count.toNat else 0)
      | some (size, false), data => decide (data.length ≠ if k = .set then size else 0)

/-- The result of a SET, GET or CLEAR that no other command takes, by the checks of R166 in their order: BUSY for a SET in a
transitional state, BAD-KIND for its length, else BAD-SELECT. -/
def badSelectorResult (s : State) (f : Frame) : ResultCode :=
  if f.kind = .set ∧ s.eng.platform.transitional = true then .busy
  else if badLength f.kind f.payload then .badKind
  else .badSelect

/-- MANAGEMENT_REQUEST_BAD_SELECTOR (R166). -/
def execManagementRequestBadSelector (s : State) : Host.Outcome State Fault Refusal :=
  .next (match s.request with
    | none => s
    | some f =>
      if f.kind = .go ∨ f.payload.head?.any (takesSelector f.kind) = true then s
      else answer f (badSelectorResult s f) [] (popUp s))

end Sys2Proof.Machine
end

