-- ==== Sys2Proof/Machine/PortCommands.lean ====
section
/-! DEFINITION. What the two ports do: receiving frames, the discards of routing and of a DOWN link, the output arbiter
(R161 to R165, R20, R144). -/

namespace Sys2Proof.Machine

/-- A port of the part. -/
def State.port (s : State) : PortId → Port
  | .upstream => s.up
  | .downstream => s.down

/-- Replace a port. -/
def State.withPort (s : State) (p : PortId) (x : Port) : State :=
  match p with
  | .upstream => s.withUp x
  | .downstream => s.withDown x

/-- A good frame goes to the input FIFO; at the Upstream Port with the link DOWN it is discarded (R161, R20). -/
def acceptFrame (p : PortId) (f : Frame) (s : State) : State :=
  if p = .upstream ∧ s.dom.linkUp = false then countDiscarded 1 s
  else s.withPort p { s.port p with input := (s.port p).input ++ [f] }

/-- The frame began while the port held ready asserted, and the FIFO has a place for it (R162): a delimiter that cut an
earlier frame short has already said so, else the command does. -/
def beganReady (port : Port) (readyAtStart : Bool) : Bool :=
  port.receiving.getD readyAtStart && port.ready

/-- A frame completes at a port, or is a frame error (R161). -/
def receiveFrame (p : PortId) (readyAtStart : Bool) (bytes : List Byte) (s : State) : State :=
  let s1 := s.withPort p { s.port p with receiving := none }
  match checkFrame bytes with
  | .incomplete => s
  | .error => countFrameError p s1
  | .good f => if beganReady (s.port p) readyAtStart then acceptFrame p f s1 else countFrameError p s1

/-- FRAME_RECEIVED (R161). Bytes that end before the last CRC byte complete no frame. -/
def execFrameReceived (p : PortId) (readyAtStart : Bool) (bytes : List Byte) (s : State) :
    Host.Outcome State Fault Refusal :=
  .next (receiveFrame p readyAtStart bytes s)

/-- START_DELIMITER_BEFORE_FRAME_END (R161): the incomplete frame is a frame error, and the next frame begins. -/
def execStartDelimiterBeforeFrameEnd (p : PortId) (s : State) : Host.Outcome State Fault Refusal :=
  .next (countFrameError p (s.withPort p { s.port p with receiving := some (s.port p).ready }))

/-- UPSTREAM_ROUTING_DISCARD (R163). -/
def execUpstreamRoutingDiscard (s : State) : Host.Outcome State Fault Refusal :=
  .next (match s.up.input with
    | f :: _ =>
      if s.dom.linkUp = true ∧ s.isLoading = false ∧ routeUp f = .discard then countDiscarded 1 (popUp s) else s
    | [] => s)

/-- LINK_DOWN_INPUT_DISCARD (R20). -/
def execLinkDownInputDiscard (s : State) : Host.Outcome State Fault Refusal :=
  .next (match s.up.input with
    | _ :: _ => if s.dom.linkUp = false ∧ s.isLoading = false then countDiscarded 1 (popUp s) else s
    | [] => s)

/-- The first frame of the Downstream Port input FIFO that may be taken past waiting traffic (R147, R162). -/
def State.pastTraffic (s : State) : Option Frame :=
  if s.isLoading then none else s.down.input.find? fun f => !isTraffic f

/-- That frame leaves the FIFO; the frames before and after it keep their order. -/
def popPastTraffic (s : State) : State :=
  s.withDown { s.down with input := s.down.input.eraseP fun f => !isTraffic f }

/-- DOWNSTREAM_ROUTING_DISCARD (R164). -/
def execDownstreamRoutingDiscard (s : State) : Host.Outcome State Fault Refusal :=
  .next (match s.pastTraffic with
    | some f => if routeDown f = .discard then countDiscarded 1 (popPastTraffic s) else s
    | none => s)

/-- A record the arbiter may take for a port: releasable and of the port's direction (R144). -/
def HoldRecord.goesTo (r : HoldRecord) (p : PortId) : Bool := r.releasable && decide (r.up = (p == .upstream))

/-- A record leaves the Hold Queue for a port; with the last UP record the permit is cleared (R146). -/
def takeRecord (p : PortId) (s : State) : State :=
  let hold := s.gate.hold.eraseP fun r => r.goesTo p
  s.withGate ⟨hold, s.gate.permit && (hold.any fun r => r.up)⟩

/-- A frame fills a place of a port's output FIFO. -/
def pushOutput (p : PortId) (f : Frame) (s : State) : State :=
  s.withPort p { s.port p with output := (s.port p).output ++ [f] }

/-- The arbiter fills one place: own frame, releasable record, forwarded message, in that order (R165). -/
def fillOutput (p : PortId) (s : State) : State :=
  match (s.port p).own with
  | f :: rest => pushOutput p f (s.withPort p { s.port p with own := rest })
  | [] =>
    match s.gate.hold.find? fun r => r.goesTo p with
    | some r => pushOutput p { r.frame with proxy := false } (if r.up then takeRecord p s else
        s.withHold (s.gate.hold.eraseP fun r => r.goesTo p))
    | none =>
      match (s.port p).forwarded with
      | some f => pushOutput p f (s.withPort p { s.port p with forwarded := none })
      | none => s

/-- OUTPUT_ARBITER_FILL (R165, R144): the output FIFO has a free place; the Upstream Port's output does not run while the
link is DOWN (R146). -/
def execOutputArbiterFill (p : PortId) (s : State) : Host.Outcome State Fault Refusal :=
  .next (if (s.port p).output.length < 4 ∧ (p = .upstream → s.dom.linkUp = true) then fillOutput p s else s)

end Sys2Proof.Machine
end

