-- ==== Sys2Proof/Machine/EngineCommands.lean ====
section
/-! DEFINITION. GO, ORDER-DONE, the expiries of step timers and undo timers, power-good changes and blanking expiries
(chapters 3, 4 and 9). -/

namespace Sys2Proof.Machine

/-! ## GO (R41, R42) -/

/-- A GO whose payload can be read: target, whether CONDITIONAL, generation (R41, R173). -/
def goOfBytes : List Byte → Option (Sleep × Bool × BitVec 16)
  | [t, m, g1, g0] =>
    match Sleep.ofByte t with
    | some target => if m.toNat < 2 then some (target, m == 0#8, word16 g1 g0) else none
    | none => none
  | _ => none

/-- The Wake Latch holds a source that would be armed for the target (R41, R105). -/
def State.wakePending (s : State) (t : Sleep) : Bool := decide (s.wake.latch &&& s.armedFor t ≠ 0#16)

/-- The checks of a GO in order: the result and its data, or the target, the mode and the steps (R41). -/
def checkGo (s : State) (payload : List Byte) : Except (ResultCode × List Byte) (Sleep × Bool × List PlanStep) :=
  if s.eng.platform ≠ .working then .error (.busy, [])
  else
    match goOfBytes payload with
    | none => .error (.badSelect, [])
    | some (target, conditional, generation) =>
      match checkSequence s target.code with
      | .error .noSequence => .error (.noSequence, [])
      | .error (.badSequence i) => .error (.badSequence, [byteOf i])
      | .ok steps =>
        if conditional = true ∧ generation ≠ s.wake.generation then .error (.stale, [])
        else if conditional = true ∧ s.wakePending target = true then .error (.wakePending, [])
        else .ok (target, conditional, steps)

/-- In UNCONDITIONAL mode the whole Wake Latch is cleared (R42, step 1). -/
def clearForGo (conditional : Bool) (s : State) : State :=
  if conditional then s else s.withWake { s.wake with latch := 0#16 }

/-- Steps 1 to 4 of an acceptance; the permit is cleared (R42, R146). -/
def enterSleep (t : Sleep) (conditional : Bool) (steps : List PlanStep) (s : State) : State :=
  let s1 := computeArmed t (clearForGo conditional s)
  let plan := planOf steps (s1.dirEntry t.code).commit s1.wake.armed none
  (s1.withEng { s1.eng with platform := .entering t, plan := some plan, rising := risingOf plan.steps }).withPermit false

/-- A GO is accepted: R42, then the level-mode lines that its clear makes latch again (R114). -/
def acceptGo (f : Frame) (t : Sleep) (conditional : Bool) (steps : List PlanStep) (s : State) : State × Departed :=
  let s1 := answer f .ok [] (enterSleep t conditional steps s)
  relatch (if conditional then 0#16 else s.wake.latch) (settle (runSteps s1.unstarted (.start s1) s1))

/-- GO (R41). -/
def execGo (s : State) : Host.Outcome State Fault Refusal :=
  .next (match s.request.filter fun f => decide (f.kind = .go) with
    | none => s
    | some f =>
      match checkGo s f.payload with
      | .error (code, data) => answer f code data (popUp s)
      | .ok (t, conditional, steps) => endEvent (acceptGo f t conditional steps (popUp s)))

/-! ## ORDER-DONE (R52, R54, R74) -/

/-- The running member at a plan position. -/
def State.memberAt (s : State) (position : Nat) : Option Member :=
  s.eng.running.find? fun m => decide (m.plan.position = position)

/-- A table entry is removed. -/
def removeOrder (o : OrderEntry) (s : State) : State :=
  s.withOrders (s.eng.orders.filter fun x => decide (x ≠ o))

/-- An undo ORDER fails: UNKNOWN, the cause, and the unwinding goes on (R74). -/
def undoFailed (u : UndoRun) (d : Domain) (c : FaultCause) (s : State) : State × Departed :=
  undoEnded u (writeCause d c (writeDomain d .unknown s))

/-- A matched ORDER-DONE ends the member or the undo that made the entry (R52, R74). -/
def orderMatched (o : OrderEntry) (reached : OrdState) (s : State) : State × Departed :=
  let s1 := removeOrder o s
  match o.position with
  | some p =>
    match s1.memberAt p with
    | some m =>
      if reached = o.target then memberCompleted m (writeDomain o.domain reached.toDom s1)
      else memberFailed m o.domain reached.toDom .stateMismatch s1
    | none => (writeDomain o.domain reached.toDom s1, .start s1)
  | none =>
    match s1.eng.undo with
    | some u =>
      if reached = o.target then undoEnded u (writeDomain o.domain reached.toDom s1)
      else undoFailed u o.domain .stateMismatch s1
    | none => (writeDomain o.domain reached.toDom s1, .start s1)

/-- A late completion (R54): a domain that leaves the Rising set by it has its held DOWN records reclassified. -/
def lateDone (d : Domain) (reached : OrdState) (s : State) : State × Departed :=
  let s1 := countLate (writeDomain d reached.toDom s)
  if hasBit s1.eng.rising d && decide (reached ≠ .on) then leaveRising d (.start s1) s1 else (s1, .start s1)

/-- An ORDER-DONE that matches no entry (R54). -/
def orderUnmatched (agent : Addr) (reached : OrdState) (s : State) : State × Departed :=
  match s.servedDomain agent with
  | some d => if s.recorded d = .unknown then lateDone d reached s else (countStray s, .start s)
  | none => (countStray s, .start s)

/-- The Engine takes an ORDER-DONE (R52). -/
def takeOrderDone (f : Frame) (s : State) : State × Departed :=
  match f.payload.head?.bind OrdState.ofByte with
  | none => (countDiscarded 1 s, .start s)
  | some reached =>
    match s.eng.orders.find? fun o => decide (o.agent = f.src ∧ o.tag = f.tag) with
    | some o => orderMatched o reached s
    | none => orderUnmatched f.src reached s

/-- ORDER_DONE (R52, R147). -/
def execOrderDone (s : State) : Host.Outcome State Fault Refusal :=
  .next (match s.pastTraffic with
    | some f => if routeDown f = .engine then endEvent (takeOrderDone f (popPastTraffic s)) else s
    | none => s)

/-! ## Step timers (R49, R53, R55, R56) -/

/-- The running member at a position whose timer counts. -/
def State.timedMember (s : State) (position : Nat) : Option Member :=
  (s.memberAt position).filter fun m => m.timer.isSome

/-- ORDER_TIMEOUT (R53). -/
def execOrderTimeout (position : Nat) (s : State) : Host.Outcome State Fault Refusal :=
  .next (match s.timedMember position with
    | some m =>
      match m.plan.step.action with
      | .order d _ _ => endEvent (memberFailed m d .unknown .stepTimeout s)
      | .line _ _ _ _ | .awaitGood _ _ _ | .delay _ => s
    | none => s)

/-- AWAIT_GOOD_TIMEOUT (R56). -/
def execAwaitGoodTimeout (position : Nat) (s : State) : Host.Outcome State Fault Refusal :=
  .next (match s.timedMember position with
    | some m =>
      match m.plan.step.action with
      | .awaitGood d _ _ => endEvent (memberFailed m d .unknown .stepTimeout s)
      | .order _ _ _ | .line _ _ _ _ | .delay _ => s
    | none => s)

/-- LINE_SETTLE_EXPIRY (R55). -/
def execLineSettleExpiry (position : Nat) (s : State) : Host.Outcome State Fault Refusal :=
  .next (match s.timedMember position with
    | some m =>
      match m.plan.step.action with
      | .line _ _ _ _ => endEvent (memberCompleted m s)
      | .order _ _ _ | .awaitGood _ _ _ | .delay _ => s
    | none => s)

/-- DELAY_EXPIRY (R55). -/
def execDelayExpiry (position : Nat) (s : State) : Host.Outcome State Fault Refusal :=
  .next (match s.timedMember position with
    | some m =>
      match m.plan.step.action with
      | .delay _ => endEvent (memberCompleted m s)
      | .order _ _ _ | .line _ _ _ _ | .awaitGood _ _ _ => s
    | none => s)

/-! ## Undo timers (R74, R75) -/

/-- The undo in flight, if its timer counts. -/
def State.timedUndo (s : State) : Option UndoRun := s.eng.undo.filter fun u => u.timer.isSome

/-- UNDO_ORDER_TIMEOUT (R74). -/
def execUndoOrderTimeout (s : State) : Host.Outcome State Fault Refusal :=
  .next (match s.timedUndo with
    | some u =>
      match u.record.action with
      | .order d _ => endEvent (undoFailed u d .stepTimeout s)
      | .line _ _ _ => s
    | none => s)

/-- UNDO_LINE_SETTLE_EXPIRY (R75). -/
def execUndoLineSettleExpiry (s : State) : Host.Outcome State Fault Refusal :=
  .next (match s.timedUndo with
    | some u =>
      match u.record.action with
      | .line _ _ _ => endEvent (undoEnded u (undoLineDone u.record.action s))
      | .order _ _ => s
    | none => s)

/-! ## Power-good lines and blanking (R151, R56, R158) -/

/-- The member waits for this level of this line (R56). -/
def State.awaits (s : State) (l : PgLine) (asserted : Bool) (m : Member) : Bool :=
  match m.plan.step.action with
  | .awaitGood d a _ => decide ((s.config d).pgLine = some l ∧ a = asserted)
  | .order _ _ _ | .line _ _ _ _ | .delay _ => false

/-- The AWAIT-GOOD members that the change completes, then the group test (R56, R48). Where one change completes several
members of a group, R56 and R27 give their writes no order; they are taken in the order they started. DESIGN CHOICE, log
entry 31. -/
def completeAwaiting (l : PgLine) (asserted : Bool) (s : State) : State × Departed :=
  match s.eng.running.filter (s.awaits l asserted) with
  | [] => (s, .start s)
  | m :: rest => settle (groupTest ((m :: rest).foldl (fun p m => completeMember m p.2 p.1) (s, .start s)))

/-- A deglitched level changes. -/
def writePg (l : PgLine) (asserted : Bool) (s : State) : State :=
  s.withMon { s.mon with pg := s.mon.pg.set l ⟨asserted, 0⟩ }

/-- POWER_GOOD_CHANGE (R151). -/
def execPowerGoodChange (l : PgLine) (asserted : Bool) (s : State) : Host.Outcome State Fault Refusal :=
  .next (if s.pgLevel l = asserted then s else endEvent (completeAwaiting l asserted (writePg l asserted s)))

/-- BLANKING_EXPIRY (R158). -/
def execBlankingExpiry (d : Domain) (s : State) : Host.Outcome State Fault Refusal :=
  .next (if s.dom.status[d].fault = .qualifying ∧ s.dom.status[d].blanking.isSome = true then
    monitor (s.withStatus d { s.dom.status[d] with fault := .noFault, blanking := none }) else s)

end Sys2Proof.Machine
end

