-- ==== Sys2Proof/Machine/GetCommands.lean ====
section
/-! DEFINITION. The GET commands (chapter 10): the data each object returns, in the layouts of sections 10.5.2 and 10.10. -/

namespace Sys2Proof.Machine

/-- The data of an object with items: the request's index and count, then each item's bytes. -/
def itemData {α : Type} {n : Nat} (limit lowest highest : Nat) (v : Vector α n) (base : Nat) (bytes : α → List Byte)
    (payload : List Byte) : Except ResultCode (List Byte) :=
  match getItems limit lowest highest payload with
  | .ok (first, count) => .ok ((readFrom v (first - base) count).flatMap bytes)
  | .error code => .error code

/-- The data of an object without items: the payload is the selector alone. -/
def wholeData (bytes : List Byte) (payload : List Byte) : Except ResultCode (List Byte) :=
  if payload.length = 1 then .ok bytes else .error .badKind

/-- Selector 0x01. -/
def dataSteps (s : State) : List Byte → Except ResultCode (List Byte) :=
  itemData 3 0 127 s.eng.store 0 bytesOfStep

/-- Selector 0x02. -/
def dataDirectory (s : State) : List Byte → Except ResultCode (List Byte) :=
  itemData 7 0 6 s.eng.directory 0 bytesOfDir

/-- The twelve configuration records with the controller bit each shows. -/
def State.domainRecords (s : State) : Vector (DomainConfig × Bool) 12 :=
  Vector.ofFn fun d => (s.dom.config[d], decide (d = s.dom.controller))

/-- Selector 0x03. -/
def dataDomains (s : State) : List Byte → Except ResultCode (List Byte) :=
  itemData 7 0 11 s.domainRecords 0 fun x => bytesOfDomain x.1 x.2

/-- Selector 0x04. -/
def dataStatus (s : State) : List Byte → Except ResultCode (List Byte) :=
  itemData 12 0 11 s.dom.status 0 bytesOfStatus

/-- Selector 0x05. -/
def dataAgents (s : State) : List Byte → Except ResultCode (List Byte) :=
  itemData 31 1 62 s.dom.agentMap 1 fun d => [byteOfDomain d]

/-- Selector 0x06. -/
def dataMatches (s : State) : List Byte → Except ResultCode (List Byte) :=
  itemData 2 0 23 s.matcher.table 0 bytesOfMatch

/-- Selector 0x07. -/
def dataWakeSettings (s : State) : List Byte → Except ResultCode (List Byte) :=
  wholeData (bytes16 s.wake.enable ++ bytes16 s.wake.maskStandby ++ bytes16 s.wake.maskHibernate
    ++ bytes16 s.wake.maskSoftoff ++ [byteOf s.wake.threshold, s.wake.window])

/-- Selector 0x08. -/
def dataWakeStatus (s : State) : List Byte → Except ResultCode (List Byte) :=
  wholeData (bytes16 s.wake.latch ++ bytes16 s.wake.generation ++ bytes16 s.wake.suppressed ++ bytes16 s.wake.armed
    ++ [byteOfBool s.wake.arm])

/-- Selector 0x09: sources 1 to 15. -/
def dataStormCounts (s : State) : List Byte → Except ResultCode (List Byte) :=
  wholeData (s.wake.stormCount.toList.tail.map byteOf)

/-- A record's bytes behind "present", or a "present" of 0 and bytes the manual does not state. Log entry 4. -/
def presentBytes (size draws : Nat) : Option (List Byte) → List Byte
  | some bytes => 1#8 :: bytes
  | none => 0#8 :: (List.range size).map fun i => Config.absentByte (draws + i)

/-- Selector 0x0A. -/
def dataWakeContext (s : State) : List Byte → Except ResultCode (List Byte) :=
  wholeData (presentBytes 9 s.draws (s.wake.context.map bytesOfContext))

/-- Selector 0x0B. -/
def dataLines (s : State) : List Byte → Except ResultCode (List Byte) :=
  itemData 8 0 7 s.qual.lines 0 bytesOfLine

/-- Selector 0x0C. -/
def dataButton (s : State) : List Byte → Except ResultCode (List Byte) :=
  wholeData [s.qual.button.pressMinimum, s.qual.button.override, s.qual.afterLoss.code,
    byteOfBool s.qual.button.state.level, pressRecord s.qual.button]

/-- Selector 0x0D. -/
def dataWakeTimer (s : State) : List Byte → Except ResultCode (List Byte) :=
  wholeData (bytes24 s.qual.wakeTimer ++ bytes24 s.qual.sleepCount ++ [byteOfBool s.qual.sleepCounting])

/-- Selector 0x0E. -/
def dataSafeLevels (s : State) : List Byte → Except ResultCode (List Byte) :=
  wholeData (bytes16 s.lines.safe)

/-- Selector 0x0F. -/
def dataEngine (s : State) : List Byte → Except ResultCode (List Byte) :=
  wholeData ([byteOf s.eng.platform.code, optByte (s.eng.platform.parameter.map Sleep.stateCode),
      optByte s.eng.platform.shownSequence, byteOf s.eng.undoStack.length,
      optByte (s.eng.undo.map fun u => u.record.index), byteOf s.eng.orders.length,
      optByte (s.eng.abortPending.map Fin.val)]
    ++ bytes12 s.eng.rising ++ bytes16 s.lines.levels)

/-- Selector 0x10. -/
def dataReport (s : State) : List Byte → Except ResultCode (List Byte) :=
  wholeData (presentBytes 7 s.draws (s.eng.lastReport.map bytesOfReport))

/-- Selector 0x11: any first index, 1 to 5 records (section 10.5.2). Log entry 16. -/
def dataHold (s : State) (payload : List Byte) : Except ResultCode (List Byte) :=
  match getItems 5 0 511 payload with
  | .ok (first, count) =>
    .ok ([byteOf s.gate.hold.length, byteOfBool s.gate.permit]
      ++ ((s.gate.hold.drop first).take count).flatMap bytesOfHold)
  | .error code => .error code

/-- The deglitched power-good levels as a set (section 10.10). -/
def State.pgLevels (s : State) : Levels := setOf allPgLines s.pgLevel

/-- Selector 0x12. -/
def dataPowerGood (s : State) : List Byte → Except ResultCode (List Byte) :=
  wholeData (bytes16 s.pgLevels)

/-- Selector 0x13: in the order of R168. -/
def dataCounters (s : State) : List Byte → Except ResultCode (List Byte) :=
  let c := s.mgmt.counters
  wholeData [byteOf c.frameErrorsUp, byteOf c.frameErrorsDown, byteOf c.discarded, byteOf c.stray, byteOf c.late,
    byteOf c.holdOverflow]

/-- Selector 0x14: 1 to 31 bytes from any start address, modulo 64 (R172). -/
def dataRetained (s : State) (payload : List Byte) : Except ResultCode (List Byte) :=
  match getItems 31 0 511 payload with
  | .ok (first, count) => .ok (Memory.readBytes s.mgmt.retained (first % 64) count)
  | .error code => .error code

/-- Selector 0x15. -/
def dataLoader (s : State) : List Byte → Except ResultCode (List Byte) := wholeData [s.ldr.status.code]

/-- Free values that a GET has drawn are not drawn again. -/
def drawn (n : Nat) (used : Bool) (s : State) : State := if used then s.withDraws (s.draws + n) else s

/-- GET_STEP_STORE (R25). -/
def execGetStepStore (s : State) : Host.Outcome State Fault Refusal := .next (serveGet 0x01#8 dataSteps s)

/-- GET_SEQUENCE_DIRECTORY (R22). -/
def execGetSequenceDirectory (s : State) : Host.Outcome State Fault Refusal := .next (serveGet 0x02#8 dataDirectory s)

/-- GET_DOMAIN_CONFIGURATION (R167). -/
def execGetDomainConfiguration (s : State) : Host.Outcome State Fault Refusal := .next (serveGet 0x03#8 dataDomains s)

/-- GET_DOMAIN_STATUS (R167). -/
def execGetDomainStatus (s : State) : Host.Outcome State Fault Refusal := .next (serveGet 0x04#8 dataStatus s)

/-- GET_AGENT_MAP (R18). -/
def execGetAgentMap (s : State) : Host.Outcome State Fault Refusal := .next (serveGet 0x05#8 dataAgents s)

/-- GET_WAKE_MATCH_TABLE (R127). -/
def execGetWakeMatchTable (s : State) : Host.Outcome State Fault Refusal := .next (serveGet 0x06#8 dataMatches s)

/-- GET_WAKE_SETTINGS (R167). -/
def execGetWakeSettings (s : State) : Host.Outcome State Fault Refusal := .next (serveGet 0x07#8 dataWakeSettings s)

/-- GET_WAKE_STATUS (R110). -/
def execGetWakeStatus (s : State) : Host.Outcome State Fault Refusal := .next (serveGet 0x08#8 dataWakeStatus s)

/-- GET_STORM_COUNTS (R110). -/
def execGetStormCounts (s : State) : Host.Outcome State Fault Refusal := .next (serveGet 0x09#8 dataStormCounts s)

/-- GET_WAKE_CONTEXT (R104). -/
def execGetWakeContext (s : State) : Host.Outcome State Fault Refusal :=
  .next (drawn 9 ((s.requestFor .get 0x0A#8).isSome && s.wake.context.isNone) (serveGet 0x0A#8 dataWakeContext s))

/-- GET_LINE_QUALIFIERS (R111). -/
def execGetLineQualifiers (s : State) : Host.Outcome State Fault Refusal := .next (serveGet 0x0B#8 dataLines s)

/-- GET_BUTTON_SETTINGS (R116). -/
def execGetButtonSettings (s : State) : Host.Outcome State Fault Refusal := .next (serveGet 0x0C#8 dataButton s)

/-- GET_WAKE_TIMER (R123). -/
def execGetWakeTimer (s : State) : Host.Outcome State Fault Refusal := .next (serveGet 0x0D#8 dataWakeTimer s)

/-- GET_SAFE_LEVELS (R83). -/
def execGetSafeLevels (s : State) : Host.Outcome State Fault Refusal := .next (serveGet 0x0E#8 dataSafeLevels s)

/-- GET_ENGINE_STATE (R167). -/
def execGetEngineState (s : State) : Host.Outcome State Fault Refusal := .next (serveGet 0x0F#8 dataEngine s)

/-- GET_LAST_REPORT (R67). -/
def execGetLastReport (s : State) : Host.Outcome State Fault Refusal :=
  .next (drawn 7 ((s.requestFor .get 0x10#8).isSome && s.eng.lastReport.isNone) (serveGet 0x10#8 dataReport s))

/-- GET_HOLD_QUEUE (R150). -/
def execGetHoldQueue (s : State) : Host.Outcome State Fault Refusal := .next (serveGet 0x11#8 dataHold s)

/-- GET_POWER_GOOD_LEVELS (R151). -/
def execGetPowerGoodLevels (s : State) : Host.Outcome State Fault Refusal := .next (serveGet 0x12#8 dataPowerGood s)

/-- GET_COUNTERS (R170). -/
def execGetCounters (s : State) : Host.Outcome State Fault Refusal := .next (serveGet 0x13#8 dataCounters s)

/-- GET_RETAINED_RESUME_AREA (R172). -/
def execGetRetainedResumeArea (s : State) : Host.Outcome State Fault Refusal := .next (serveGet 0x14#8 dataRetained s)

/-- GET_LOADER_STATUS (R177). -/
def execGetLoaderStatus (s : State) : Host.Outcome State Fault Refusal := .next (serveGet 0x15#8 dataLoader s)

end Sys2Proof.Machine
end

