-- ==== Sys2Proof/Machine/PowerCommands.lean ====
section
/-! DEFINITION. POWER_ON_RESET, MAINS_LOSS and MAINS_RETURN (R174, R85 to R88, R181). -/

namespace Sys2Proof.Machine

/-- POWER_ON_RESET (R174). What the model itself keeps, the queue of waiting commands and the draw counter, stays: log
entry 25. -/
def execPowerOnReset (s : State) : Host.Outcome State Fault Refusal :=
  .next ((State.reset.withPending s.pending).withDraws s.draws)

/-- A mains loss taken during a loading is remembered: the link stops being held UP (R181). -/
def noteMainsLoss (s : State) : State :=
  match s.ldr.loading with
  | some l => s.withLdr { s.ldr with loading := some { l with mainsLost := true } }
  | none => s

/-- The filtered ACOK level changes (R85, R87). -/
def writeAcok (level : Bool) (s : State) : State := s.withQual { s.qual with acok := ⟨level, 0⟩ }

/-- The Hold Queue is cleared of every record and the permit cleared; no answer is made, nothing is counted (R150). -/
def clearHold (s : State) : State := s.withGate ⟨[], false⟩

/-- The Armed set at a mains loss: computed for SOFTOFF, or left empty during a loading (R98, R181). -/
def armAtMainsLoss (s : State) : State := if s.isLoading then emptyArmed s else computeArmed .softoff s

/-- The effect of a mains loss (R85). -/
def mainsLoss (s : State) : State :=
  let s1 := clearWork (noteMainsLoss (writeAcok false s))
  let s2 := s1.withEng { s1.eng with forcingCause := none, rising := 0#12 }
  let s3 := allDomainsOff (driveSafe (clearHold s2))
  let s4 := startSleepCount (armAtMainsLoss (setArm (s3.withPlatform (.rest .softoff))))
  recordReport ⟨s.eng.platform.sequence, .forced, .acLoss, none, none, 0#12⟩ s4

/-- MAINS_LOSS (R85, R86): the filtered ACOK level goes from ASSERTED to DEASSERTED. -/
def execMainsLoss (s : State) : Host.Outcome State Fault Refusal :=
  .next (if s.qual.acok.level then mainsLoss s else s)

/-- The after-loss policy is applied in SOFTOFF: a wake with reason POWER-RESTORE (R87, R179). -/
def applyAfterLoss (left : Departed) (s : State) : State × Departed :=
  if s.qual.acok.level = true ∧ s.qual.afterLoss = .powerOn ∧ s.eng.platform = .rest .softoff then
    acceptWake .softoff .powerRestore left s
  else (s, left)

/-- The effect of a return of mains power; during a loading it waits for the loading's end (R87, R181). -/
def mainsReturn (s : State) : State :=
  let s1 := writeAcok true s
  if s.isLoading then s1 else endEvent (applyAfterLoss (.start s1) s1)

/-- MAINS_RETURN (R87): the filtered ACOK level goes from DEASSERTED to ASSERTED. -/
def execMainsReturn (s : State) : Host.Outcome State Fault Refusal :=
  .next (if s.qual.acok.level then s else mainsReturn s)

end Sys2Proof.Machine
end

