-- ==== Sys2Proof/Machine/LoaderCommands.lean ====
section
/-! DEFINITION. The Configuration Loader: judging the image, the acceptance of a REINIT, applying records, the fallback
tables and the end of a loading (chapter 11). -/

namespace Sys2Proof.Machine

/-- Replace the loading in progress. -/
def State.withLoading (s : State) (x : Option Loading) : State := s.withLdr { s.ldr with loading := x }

/-- Replace the loader status. -/
def State.withStatusCode (s : State) (x : LoaderStatus) : State := s.withLdr { s.ldr with status := x }

/-! ## The tables (R171, R174, R178) -/

/-- A Line Qualifier emptied to its power-on settings; the filtered level stays (R111). A qualification in progress ends
with the write of the filter code: log entry 20. -/
def LineQualifier.emptied (q : LineQualifier) : LineQualifier := ⟨.disabled, 0x00#8, q.level, none⟩

/-- Every table and setting of the configuration holds its power-on value (R174). -/
def emptyTables (s : State) : State :=
  let s1 := s.withEng { s.eng with
    directory := Vector.replicate 7 DirEntry.empty, store := Vector.replicate 128 StepRecord.empty }
  let s2 := s1.withDom { s1.dom with
    config := Vector.replicate 12 DomainConfig.empty, controller := 0, agentMap := Vector.replicate 62 none }
  let s3 := s2.withMatcher ⟨Vector.replicate 24 MatchEntry.empty⟩
  let s4 := s3.withWake { s3.wake with
    enable := 1#16, maskStandby := 0#16, maskHibernate := 0#16, maskSoftoff := 0#16, threshold := 1, window := 0x00#8,
    windowTimer := none }
  let s5 := s4.withQual { s4.qual with
    lines := Vector.ofFn fun k => s4.qual.lines[k].emptied,
    button := { s4.qual.button with pressMinimum := 0x49#8, override := 0xE8#8 }, afterLoss := .stayOff }
  recomputeLink (s5.withLines { s5.lines with safe := 0#16 })

/-- The fallback record of domain 0 (R178). -/
def fallbackDomain : DomainConfig := ⟨none, some 0, true, false, false, .report, true, 0x00#8⟩

/-- The fallback steps 0 to 5 (R178). -/
def fallbackSteps : List StepRecord :=
  [⟨.line none 0 true false, false, 0x00#8, .continue, .always⟩,
   ⟨.awaitGood 0 true (some .on), false, 0xE2#8, .abort, .always⟩,
   ⟨.delay none, false, 0x8D#8, .continue, .always⟩,
   ⟨.line none 3 true false, false, 0x00#8, .continue, .always⟩,
   ⟨.line none 3 false false, false, 0x00#8, .continue, .always⟩,
   ⟨.line (some (0, some .off)) 0 false false, false, 0x00#8, .continue, .always⟩]

/-- The fallback tables, written over emptied ones (R178). -/
def fallbackTables (s : State) : State :=
  let s1 := emptyTables s
  let s2 := s1.withDom { s1.dom with config := s1.dom.config.set 0 fallbackDomain }
  s2.withEng { s2.eng with
    store := writeFrom s2.eng.store 0 fallbackSteps,
    directory := writeFrom s2.eng.directory 5 [⟨0, 4, 0⟩, ⟨4, 2, 0⟩] }

/-! ## The end of a loading (R179 to R181) -/

/-- The RESULT of a REINIT is queued if the link is UP, and its service ends (R180, R166). -/
def endService (code : ResultCode) (s : State) : State :=
  let s1 := match s.mgmt.serving with
    | some tag => queueResult (resultFrame tag code []) s
    | none => s
  s1.withMgmt { s1.mgmt with serving := none }

/-- An event deferred during the loading is taken (R11). -/
def takeDeferred (deferred : Option ReportCause) (left : Departed) (s : State) : State × Departed :=
  match deferred with
  | some cause => forcingEvent cause left s
  | none => (s, left)

/-- The window timer starts with the window in force (R106). -/
def startWindow (s : State) : State := s.withWake { s.wake with windowTimer := startTimer (ticks s.wake.window) }

/-- The end of a power-on loading, or of a REINIT that met mains loss, from step 2 on (R179, R181). -/
def endAsPowerOn (left : Departed) (s : State) : State × Departed :=
  let s1 := startWindow (computeArmed .softoff s)
  let s2 := recomputeLink (s1.withLoading none)
  applyAfterLoss left (s2.withMgmt { s2.mgmt with serving := none })

/-- The end of a REINIT from the recomputation of the link on (R180). -/
def endAsReinit (l : Loading) (code : ResultCode) (left : Departed) (s : State) : State × Departed :=
  let p := takeDeferred l.deferred left (recomputeLink (s.withLoading none))
  (endService code p.1, p.2)

/-- The loading ends with tables installed (R179, R180), after what its last record has done. The Monitor makes its one test of this event once all its other
work is done, the RESULT and a deferred FORCING among it (R152). Log entry 9. -/
def endLoading (l : Loading) (status : LoaderStatus) (p : State × Departed) : State :=
  let s1 := p.1.withStatusCode status
  endEvent (if l.byReinit && !l.mainsLost then endAsReinit l .ok p.2 (startWindow s1) else endAsPowerOn p.2 s1)

/-- The fallback tables are installed and the loading ends (R177). -/
def fallBack (l : Loading) (status : LoaderStatus) (s : State) : State :=
  let s1 := fallbackTables s
  endLoading l status (s1, .start s1)

/-- A REINIT's image fails a check (R180, R181). -/
def failReinit (l : Loading) (s : State) : State :=
  endEvent (if l.mainsLost then endAsPowerOn (.start s) s else endAsReinit l .imageFailed (.start s) s)

/-- An image is unusable: fallback at power-on, IMAGE-FAILED for a REINIT (R175). -/
def imageUnusable (l : Loading) (status : LoaderStatus) (s : State) : State :=
  if l.byReinit then failReinit l s else fallBack l status s

/-! ## Judging the image (R175) -/

/-- The unit count of the first five bytes. -/
def unitCount (b3 b4 : Byte) : Nat := (word16 b3 b4).toNat

/-- The marker, the format and the unit count are good (R175). -/
def headerGood (b0 b1 b2 b3 b4 : Byte) : Bool :=
  decide (b0 = 0xD5#8 ∧ b1 = 0x1E#8 ∧ b2 = 0x01#8 ∧ 1 ≤ unitCount b3 b4 ∧ unitCount b3 b4 ≤ 4095)

/-- IMAGE_HEADER_READ (R175). -/
def execImageHeaderRead (b0 b1 b2 b3 b4 : Byte) (s : State) : Host.Outcome State Fault Refusal :=
  .next (match s.ldr.loading with
    | some l =>
      match l.phase with
      | .header =>
        if headerGood b0 b1 b2 b3 b4 then s.withLoading (some { l with phase := .body [b0, b1, b2, b3, b4] })
        else imageUnusable l .fallbackNoImage s
      | .body _ | .records _ => s
    | none => s)

/-- The record area of the bytes that follow the first five (section 11.2): all but the last two. -/
def recordArea (rest : List Byte) : List Byte := rest.take (rest.length - 2)

/-- The length of the whole image that the first five bytes announce. -/
def imageLength : List Byte → Nat
  | [_, _, _, b3, b4] => (unitCount b3 b4 + 1) * 4
  | _ => 0

/-- The CRC over every byte before the last two equals the last two, high byte first (R175). -/
def imageCrcGood (head rest : List Byte) : Bool :=
  decide (bytes16 (crc16 (head ++ recordArea rest)) = rest.drop (rest.length - 2))

/-- The acceptance of a REINIT (R171). -/
def acceptReinit (s : State) : State :=
  let s1 := (clearHold s).withCounters ⟨0, 0, 0, 0, 0, 0⟩
  let s2 := s1.withWake { s1.wake with latch := 0#16, suppressed := 0#16, stormCount := Vector.replicate 16 0 }
  emptyTables (s2.withEng { s2.eng with lastReport := none })

/-- IMAGE_READ_COMPLETE (R175): with every byte of the image read, its CRC is checked. -/
def execImageReadComplete (rest : List Byte) (s : State) : Host.Outcome State Fault Refusal :=
  .next (match s.ldr.loading with
    | some l =>
      match l.phase with
      | .body head =>
        if head.length + rest.length ≠ imageLength head then s
        else if imageCrcGood head rest then
          (if l.byReinit then acceptReinit s else s).withLoading (some { l with phase := .records (recordArea rest) })
        else imageUnusable l .fallbackCrc s
      | .header | .records _ => s
    | none => s)

/-! ## Applying the records (R176) -/

/-- The SET rules for a record, from BAD-KIND on; the Wake Timer, the Retained Resume Area, REINIT and every selector
that SET does not take are refused (R176). -/
def recordCheck (s : State) (payload : List Byte) : Except ResultCode SetWrite :=
  match payload.head?.map BitVec.toNat with
  | some 0x01 => checkSteps s payload
  | some 0x02 => checkDirectory s payload
  | some 0x03 => checkDomains s payload
  | some 0x05 => checkAgents s payload
  | some 0x06 => checkMatches s payload
  | some 0x07 => checkWakeSettings s payload
  | some 0x0B => checkLines s payload
  | some 0x0C => checkButton s payload
  | some 0x0E => checkSafeLevels s payload
  | _ => .error .badSelect

/-- The area from its first byte that is no padding (R176). -/
def skipPadding : List Byte → List Byte
  | [] => []
  | b :: rest => if b = 0#8 then skipPadding rest else b :: rest

/-- The next record's body and the area after it, or none where the record is refused for its length (R176). -/
def nextRecord (len : Byte) (rest : List Byte) : Option (List Byte × List Byte) :=
  if len.toNat ≤ 32 ∧ len.toNat ≤ rest.length then some (rest.take len.toNat, rest.drop len.toNat) else none

/-- The next record of the area is applied as a SET, or refused; the loading ends with the last byte of the area (R176). -/
def applyRecord (l : Loading) (area : List Byte) (s : State) : State :=
  match skipPadding area with
  | [] => endLoading l .loaded (s, .start s)
  | len :: rest =>
    match nextRecord len rest with
    | none => fallBack l .fallbackRecord s
    | some (body, after) =>
      match recordCheck s body with
      | .error _ => fallBack l .fallbackRecord s
      | .ok w =>
        let s1 := s.withLoading (some { l with phase := .records after })
        if after.isEmpty then endLoading l .loaded (applyWrite w s1) else writeAndTest w s1

/-- LOADER_RECORD_APPLY (R176). Log entry 18. -/
def execLoaderRecordApply (s : State) : Host.Outcome State Fault Refusal :=
  .next (match s.ldr.loading with
    | some l =>
      match l.phase with
      | .records area => applyRecord l area s
      | .header | .body _ => s
    | none => s)

end Sys2Proof.Machine
end

