-- ==== Sys2Proof/Machine/QualifierCommands.lean ====
section
/-! DEFINITION. The events of the wake lines, the power button, the seconds divider and the storm window (chapter 6, R106). -/

namespace Sys2Proof.Machine

/-- A filtered line level changes (R112). -/
def writeLineLevel (k : WakeLine) (high : Bool) (s : State) : State :=
  s.withQual { s.qual with
    lines := s.qual.lines.set k { s.qual.lines[k] with level := high, qualifying := none } }

/-- LINE_FILTERED_CHANGE (R112 to R114). -/
def execLineFilteredChange (k : WakeLine) (high : Bool) (s : State) : Host.Outcome State Fault Refusal :=
  .next (if s.qual.lines[k].level = high then s
    else if s.qual.lines[k].mode.names high then endEvent (latchEvent (lineSource k) (writeLineLevel k high s))
    else writeLineLevel k high s)

/-- Replace the Button Qualifier. -/
def State.withButton (s : State) (b : Button) : State := s.withQual { s.qual with button := b }

/-- The press latches source 0, once (R117). -/
def pressLatch (s : State) : State × Departed :=
  if s.qual.button.latched then (s, .start s) else latchEvent 0 (s.withButton { s.qual.button with latched := true })

/-- A press (R117, R118): a new record and the two timers; a press minimum of 0 latches at once. -/
def press (s : State) : State × Departed :=
  let b := s.qual.button
  let s1 := s.withButton { b with
    state := ⟨true, 0⟩, latched := false, overridden := false,
    pressTimer := startTimer (ticks b.pressMinimum), overrideTimer := startTimer (ticks b.override) }
  if ticks b.pressMinimum = 0 then pressLatch s1 else (s1, .start s1)

/-- BUTTON_PRESS (R116). -/
def execButtonPress (s : State) : Host.Outcome State Fault Refusal :=
  .next (if s.qual.button.state.level then s else endEvent (press s))

/-- BUTTON_RELEASE (R116): both timers stop, and the record keeps the values of the press that ended. -/
def execButtonRelease (s : State) : Host.Outcome State Fault Refusal :=
  .next (if s.qual.button.state.level then
    s.withButton { s.qual.button with state := ⟨false, 0⟩, pressTimer := none, overrideTimer := none } else s)

/-- Both timers run and the override timer expires no later than the press timer, as it does where v is no greater than p:
the override expiry then finds latched 0, makes the latch itself and stops the press timer (R118). -/
def Button.overrideFirst (b : Button) : Bool :=
  match b.pressTimer, b.overrideTimer with
  | some n, some m => decide (m ≤ n)
  | _, _ => false

/-- The press timer has an expiry of its own: it runs, and the override timer does not stop it first (R117, R118). -/
def Button.pressExpires (b : Button) : Bool := b.pressTimer.isSome && !b.overrideFirst

/-- PRESS_TIMER_EXPIRY (R117). Where the override timer expires no later, the press timer has no expiry of its own (R118,
log entry 1). -/
def execPressTimerExpiry (s : State) : Host.Outcome State Fault Refusal :=
  .next (if s.qual.button.pressExpires then
    endEvent (pressLatch (s.withButton { s.qual.button with pressTimer := none })) else s)

/-- The override timer expires with the button held (R118): the latch first, if the press has not latched; then the
override event (R119). -/
def overridePress (s : State) : State × Departed :=
  let b := s.qual.button
  let p := pressLatch (s.withButton { b with
    overridden := true, overrideTimer := none, pressTimer := if b.latched then b.pressTimer else none })
  forcingEvent .override p.2 p.1

/-- OVERRIDE_TIMER_EXPIRY (R118). -/
def execOverrideTimerExpiry (s : State) : Host.Outcome State Fault Refusal :=
  .next (if s.qual.button.overrideTimer.isSome && s.qual.button.state.level then endEvent (overridePress s) else s)

/-! ## Seconds (R120, R122, R123) -/

/-- The greatest count of the Wake Timer and of the sleep-duration counter. -/
def secondsLimit : Nat := 16777215

/-- The sleep-duration counter takes a seconds step (R123). -/
def stepSleep (s : State) : State :=
  if s.qual.sleepCounting then s.withQual { s.qual with sleepCount := min secondsLimit (s.qual.sleepCount + 1) } else s

/-- The Wake Timer takes a seconds step (R122). -/
def stepWakeTimer (s : State) : State × Departed :=
  let s1 := s.withQual { s.qual with wakeTimer := s.qual.wakeTimer - 1 }
  if s.qual.wakeTimer = 1 then latchEvent 1 s1 else (s1, .start s1)

/-- A seconds step: the divider has wrapped to 0, the sleep-duration counter goes first (R120). A SECONDS_STEP or
WAKE_TIMER_EXPIRY commanded before the divider has wrapped is taken as its wrap, and the divider is 0 after it. DESIGN
CHOICE, log entry 33. -/
def secondsStep (s : State) : State :=
  endEvent (stepWakeTimer (stepSleep (s.withQual { s.qual with divider := 0, secondsDue := false })))

/-- SECONDS_STEP (R120). -/
def execSecondsStep (s : State) : Host.Outcome State Fault Refusal := .next (secondsStep s)

/-- WAKE_TIMER_EXPIRY (R122): the seconds step at which the count goes from 1 to 0. Log entry 17. -/
def execWakeTimerExpiry (s : State) : Host.Outcome State Fault Refusal :=
  .next (if s.qual.wakeTimer = 1 then secondsStep s else s)

/-- STORM_WINDOW_EXPIRY (R106): counts outside the Suppressed set return to 0 and the window starts again. -/
def execStormWindowExpiry (s : State) : Host.Outcome State Fault Refusal :=
  .next (if s.wake.windowTimer.isSome then
    s.withWake { s.wake with stormCount := s.wake.clearedCounts, windowTimer := startTimer (ticks s.wake.window) } else s)

end Sys2Proof.Machine
end

