-- ==== Sys2Proof/Machine/SetCommands.lean ====
section
/-! DEFINITION. The SET commands (chapter 10; the rule of each object stands with its command in Syntax.lean). -/

namespace Sys2Proof.Machine

/-- SET_STEP_STORE (R26). -/
def execSetStepStore (s : State) : Host.Outcome State Fault Refusal :=
  .next (serveSet 0x01#8 checkSteps writeAndTest s)

/-- SET_SEQUENCE_DIRECTORY (R23). -/
def execSetSequenceDirectory (s : State) : Host.Outcome State Fault Refusal :=
  .next (serveSet 0x02#8 checkDirectory writeAndTest s)

/-- SET_DOMAIN_CONFIGURATION (R13, R14, R159). -/
def execSetDomainConfiguration (s : State) : Host.Outcome State Fault Refusal :=
  .next (serveSet 0x03#8 checkDomains writeAndTest s)

/-- SET_AGENT_MAP (R18). -/
def execSetAgentMap (s : State) : Host.Outcome State Fault Refusal :=
  .next (serveSet 0x05#8 checkAgents writeAndTest s)

/-- SET_WAKE_MATCH_TABLE (R126). -/
def execSetWakeMatchTable (s : State) : Host.Outcome State Fault Refusal :=
  .next (serveSet 0x06#8 checkMatches writeAndTest s)

/-- SET_WAKE_SETTINGS (R96, R97, R106). -/
def execSetWakeSettings (s : State) : Host.Outcome State Fault Refusal :=
  .next (serveSet 0x07#8 checkWakeSettings writeAndTest s)

/-- SET_LINE_QUALIFIERS (R115, R112). -/
def execSetLineQualifiers (s : State) : Host.Outcome State Fault Refusal :=
  .next (serveSet 0x0B#8 checkLines writeAndTest s)

/-- SET_BUTTON_SETTINGS (R117). -/
def execSetButtonSettings (s : State) : Host.Outcome State Fault Refusal :=
  .next (serveSet 0x0C#8 checkButton writeAndTest s)

/-- SET_WAKE_TIMER (R121). -/
def execSetWakeTimer (s : State) : Host.Outcome State Fault Refusal :=
  .next (serveSet 0x0D#8 checkWakeTimer writeAndTest s)

/-- SET_SAFE_LEVELS (R83). -/
def execSetSafeLevels (s : State) : Host.Outcome State Fault Refusal :=
  .next (serveSet 0x0E#8 checkSafeLevels writeAndTest s)

/-- SET_RETAINED_RESUME_AREA (R172). -/
def execSetRetainedResumeArea (s : State) : Host.Outcome State Fault Refusal :=
  .next (serveSet 0x14#8 checkRetained writeAndTest s)

/-- A REINIT is taken: its tag is kept for its RESULT and a loading starts (R171). -/
def startReinit (tag : Tag) (s : State) : State :=
  (s.withMgmt { s.mgmt with serving := some tag }).withLdr
    { s.ldr with loading := some ⟨true, .header, false, none⟩ }

/-- REINIT (R171): BUSY in every state but WORKING (R167); it carries no data. -/
def execReinit (s : State) : Host.Outcome State Fault Refusal :=
  .next (match s.requestFor .set 0x16#8 with
    | none => s
    | some f =>
      if s.eng.platform ≠ .working then answer f .busy [] (popUp s)
      else if f.payload.length ≠ 1 then answer f .badKind [] (popUp s)
      else startReinit f.tag (popUp s))

end Sys2Proof.Machine
end

