-- ==== Sys2Proof/Machine/TrafficCommands.lean ====
section
/-! DEFINITION. The Traffic Gate's arrivals and the Message Matcher (chapters 7 and 8). -/

namespace Sys2Proof.Machine

/-! ## Downstream traffic (R139 to R141) -/

/-- What the Gate does with a downstream message. -/
inductive Disposal where
  | forward | hold | refuse
  deriving DecidableEq, Repr

/-- The tests of R139 in order. -/
def disposeDown (s : State) (f : Frame) : Disposal :=
  match s.mapped f.dest with
  | none => .forward
  | some d =>
    let answers := decide (s.recorded d = .on ∨ s.recorded d = .idle)
    if s.gate.hold.any (fun r => !r.up && decide (r.frame.dest = f.dest)) then .hold
    else if s.eng.platform = .forcing then (if answers then .forward else .refuse)
    else if s.eng.orders.any (fun o => decide (o.domain = d ∧ o.target ≠ .on)) then .refuse
    else if s.eng.orders.any (fun o => decide (o.domain = d ∧ o.target = .on)) then .hold
    else if answers then .forward
    else if hasBit s.eng.rising d then .hold
    else .refuse

/-- A downstream message is held at the tail, releasable behind a releasable record for its destination, or refused for a
full queue (R141, R144). -/
def holdDown (f : Frame) (s : State) : State :=
  if s.gate.hold.length < 16 then
    s.withHold (s.gate.hold ++ [⟨false, f, s.gate.hold.any fun r =>
      !r.up && decide (r.frame.dest = f.dest) && r.releasable⟩])
  else if f.kind = .ask then queueUp (proxyAnswer f holdFull) (countOverflow s)
  else countOverflow s

/-- The Gate disposes of a downstream message. -/
def gateDown (f : Frame) (s : State) : State :=
  match disposeDown s f with
  | .forward => s.withDown { s.down with forwarded := some f }
  | .hold => holdDown f s
  | .refuse => refuseDown f s

/-- The downstream message at the head of the Upstream Port input FIFO, if the Gate may take it (R162, R144). -/
def State.downTraffic (s : State) : Option Frame :=
  if s.dom.linkUp && !s.isLoading && s.down.forwarded.isNone then
    match s.up.input with
    | f :: _ => if routeUp f = .gate then some f else none
    | [] => none
  else none

/-- DOWNSTREAM_TRAFFIC (R139). -/
def execDownstreamTraffic (s : State) : Host.Outcome State Fault Refusal :=
  .next (match s.downTraffic with
    | some f => gateDown f (popUp s)
    | none => s)

/-! ## Upstream traffic (R142) -/

/-- The frame at the head of the Downstream Port input FIFO, if upstream traffic may be taken (R137, R144, R147, R162). -/
def State.upTraffic (s : State) (route : DownRoute) : Option Frame :=
  if !s.isLoading && !s.upstreamStalled && s.up.forwarded.isNone then
    match s.down.input with
    | f :: _ => if routeDown f = route then some f else none
    | [] => none
  else none

/-- The head of the Downstream Port input FIFO leaves it. -/
def popDown (s : State) : State := s.withDown { s.down with input := s.down.input.tail }

/-- A message goes to the Upstream Port's arbiter. -/
def forwardUp (f : Frame) (s : State) : State := s.withUp { s.up with forwarded := some f }

/-- UPSTREAM_ANSWER (R142). -/
def execUpstreamAnswer (s : State) : Host.Outcome State Fault Refusal :=
  .next (match s.upTraffic .gate with
    | some f => if s.dom.linkUp then forwardUp f (popDown s) else countDiscarded 1 (popDown s)
    | none => s)

/-- An upstream message is discarded and counted; an ASK is answered ASLEEP (R142). -/
def discardUp (f : Frame) (s : State) : State :=
  if f.kind = .ask then queueDown (proxyAnswer f asleep) (countDiscarded 1 s) else countDiscarded 1 s

/-- An upstream message is kept at the tail, or discarded for a full queue (R142, R146). -/
def keepUp (f : Frame) (s : State) : State :=
  if s.gate.hold.length < 16 then s.withHold (s.gate.hold ++ [⟨true, f, s.gate.permit && s.dom.linkUp⟩])
  else if f.kind = .ask then queueDown (proxyAnswer f holdFull) (countOverflow s)
  else countOverflow s

/-! ## The field test (R129 to R131) -/

/-- The payload byte at an index; past the payload or past 31 it counts as 0 (R130). -/
def payloadByte (p : List Byte) (i : Nat) : Byte := ((p.take 32)[i]?).getD 0#8

/-- Presence: the byte holding the field's lowest bit lies in the payload (R129). -/
def fieldPresent (e : MatchEntry) (p : List Byte) : Bool :=
  decide (e.offset.val + (31 - e.lsb.val) / 8 < p.length)

/-- The window word (R130). -/
def windowWord (e : MatchEntry) (p : List Byte) : BitVec 32 :=
  let o := e.offset.val
  word32 (payloadByte p o) (payloadByte p (o + 1)) (payloadByte p (o + 2)) (payloadByte p (o + 3))

/-- The field's width (R130). -/
def MatchEntry.width (e : MatchEntry) : Nat := e.msb.val - e.lsb.val + 1

/-- The field (R130). -/
def fieldOf (e : MatchEntry) (p : List Byte) : Nat := (windowWord e p).toNat / 2 ^ e.lsb.val % 2 ^ e.width

/-- The field's value (R131). -/
def fieldValue (e : MatchEntry) (p : List Byte) : Int :=
  if e.signed = true ∧ 2 ^ (e.width - 1) ≤ fieldOf e p then (fieldOf e p : Int) - 2 ^ e.width else fieldOf e p

/-- A bound as the signed flag reads it (R131). -/
def boundValue (e : MatchEntry) (b : BitVec 32) : Int := if e.signed then b.toInt else b.toNat

/-- The value lies inside the window (R131). -/
def insideWindow (e : MatchEntry) (p : List Byte) : Bool :=
  decide (boundValue e e.low ≤ fieldValue e p ∧ fieldValue e p ≤ boundValue e e.high)

/-- The entry's field test passes (R129 to R131); with no field test it passes (section 7.4). -/
def testPasses (e : MatchEntry) (p : List Byte) : Bool :=
  !e.fieldTest || (fieldPresent e p && (insideWindow e p != e.outside))

/-! ## The scan, the qualifier and the disposition (R128, R132 to R136) -/

/-- The entry selects the message (R128). -/
def selects (e : MatchEntry) (f : Frame) : Bool :=
  e.valid && e.agent.all (fun a => decide (a = f.src)) && e.kind.all (fun k => decide (k = f.kind))

/-- The scan over the listed entries: the table with the run counts of failed entries at 0, and the hit (R128). -/
def scanFrom (f : Frame) : List (Fin 24) → Vector MatchEntry 24 → Vector MatchEntry 24 × Option (Fin 24)
  | [], t => (t, none)
  | i :: rest, t =>
    if selects t[i] f then
      if testPasses t[i] f.payload then (t, some i) else scanFrom f rest (t.set i { t[i] with run := 0 })
    else scanFrom f rest t

/-- The scan of the whole table. -/
def scan (f : Frame) (t : Vector MatchEntry 24) : Vector MatchEntry 24 × Option (Fin 24) := scanFrom f allEntries t

/-- The qualifier takes the hit: the run count rises, and the action fires when it reaches the qualifier (R132). -/
def qualify (t : Vector MatchEntry 24) (hit : Option (Fin 24)) : Vector MatchEntry 24 × Option MatchEntry :=
  match hit with
  | none => (t, none)
  | some i =>
    if t[i].qualifier ≤ t[i].run + 1 then (t.set i { t[i] with run := 0 }, some t[i])
    else (t.set i { t[i] with run := t[i].run + 1 }, none)

/-- The dispositions of R134. -/
inductive Disposition where
  | forward | keep | discard
  deriving DecidableEq, Repr

/-- The disposition from the fired action and the states read when the message was taken (R134). -/
def disposition (s : State) (fired : Option MatchEntry) : Disposition :=
  if s.dom.linkUp = true ∨ s.eng.platform = .working then .forward
  else
    match fired.map MatchEntry.action with
    | some .keep | some .wakeKeep => .keep
    | some .drop | some .wake | none => .discard

/-- The latch event of a firing WAKE or WAKE+KEEP action (R135). -/
def fireLatch (fired : Option MatchEntry) (s : State) : State × Departed :=
  match fired with
  | some e =>
    match e.action.wakes, messageSource e.source with
    | true, some src => latchEvent src s
    | true, none | false, _ => (s, .start s)
  | none => (s, .start s)

/-- The Gate carries out a disposition (R142). -/
def gateUp (f : Frame) (x : Disposition) (s : State) : State :=
  match x with
  | .forward => if s.dom.linkUp then forwardUp f s else discardUp f s
  | .keep => keepUp f s
  | .discard => discardUp f s

/-- The Matcher takes a message (R124): scan, qualifier, latch event, then the Gate. A WAKE+KEEP message whose wake completes at
this event is kept after the completion: R135 releases it when the wake completes, R146 clears the permit where no UP
record is held then. It waits for a later wake. DESIGN CHOICE, log entry 34. -/
def takeMessage (f : Frame) (s : State) : State × Departed :=
  let scanned := scan f s.matcher.table
  let q := qualify scanned.1 scanned.2
  let p := fireLatch q.2 (s.withMatcher ⟨q.1⟩)
  (gateUp f (disposition s q.2) p.1, p.2)

/-- MATCHER_TAKE_MESSAGE (R124). -/
def execMatcherTakeMessage (s : State) : Host.Outcome State Fault Refusal :=
  .next (match s.upTraffic .matcher with
    | some f => endEvent (takeMessage f (popDown s))
    | none => s)

end Sys2Proof.Machine
end

