-- ==== Sys2Proof/Machine/Dispatch.lean ====
section
/-! DEFINITION. The effect of a command on everything but the queue: one arm for each row of spec/opcode_table.json. -/

namespace Sys2Proof.Machine

def exec (i : Instr) (s : State) : Host.Outcome State Fault Refusal :=
  match i with
  | .powerOnReset => Sys2Proof.Machine.execPowerOnReset s
  | .mainsLoss => Sys2Proof.Machine.execMainsLoss s
  | .mainsReturn => Sys2Proof.Machine.execMainsReturn s
  | .frameReceived port readyAtStart bytes => Sys2Proof.Machine.execFrameReceived port readyAtStart bytes s
  | .upstreamRoutingDiscard => Sys2Proof.Machine.execUpstreamRoutingDiscard s
  | .downstreamRoutingDiscard => Sys2Proof.Machine.execDownstreamRoutingDiscard s
  | .linkDownInputDiscard => Sys2Proof.Machine.execLinkDownInputDiscard s
  | .outputArbiterFill port => Sys2Proof.Machine.execOutputArbiterFill port s
  | .go => Sys2Proof.Machine.execGo s
  | .setStepStore => Sys2Proof.Machine.execSetStepStore s
  | .setSequenceDirectory => Sys2Proof.Machine.execSetSequenceDirectory s
  | .setDomainConfiguration => Sys2Proof.Machine.execSetDomainConfiguration s
  | .setAgentMap => Sys2Proof.Machine.execSetAgentMap s
  | .setWakeMatchTable => Sys2Proof.Machine.execSetWakeMatchTable s
  | .setWakeSettings => Sys2Proof.Machine.execSetWakeSettings s
  | .setLineQualifiers => Sys2Proof.Machine.execSetLineQualifiers s
  | .setButtonSettings => Sys2Proof.Machine.execSetButtonSettings s
  | .setWakeTimer => Sys2Proof.Machine.execSetWakeTimer s
  | .setSafeLevels => Sys2Proof.Machine.execSetSafeLevels s
  | .setRetainedResumeArea => Sys2Proof.Machine.execSetRetainedResumeArea s
  | .reinit => Sys2Proof.Machine.execReinit s
  | .getStepStore => Sys2Proof.Machine.execGetStepStore s
  | .getSequenceDirectory => Sys2Proof.Machine.execGetSequenceDirectory s
  | .getDomainConfiguration => Sys2Proof.Machine.execGetDomainConfiguration s
  | .getDomainStatus => Sys2Proof.Machine.execGetDomainStatus s
  | .getAgentMap => Sys2Proof.Machine.execGetAgentMap s
  | .getWakeMatchTable => Sys2Proof.Machine.execGetWakeMatchTable s
  | .getWakeSettings => Sys2Proof.Machine.execGetWakeSettings s
  | .getWakeStatus => Sys2Proof.Machine.execGetWakeStatus s
  | .getStormCounts => Sys2Proof.Machine.execGetStormCounts s
  | .getWakeContext => Sys2Proof.Machine.execGetWakeContext s
  | .getLineQualifiers => Sys2Proof.Machine.execGetLineQualifiers s
  | .getButtonSettings => Sys2Proof.Machine.execGetButtonSettings s
  | .getWakeTimer => Sys2Proof.Machine.execGetWakeTimer s
  | .getSafeLevels => Sys2Proof.Machine.execGetSafeLevels s
  | .getEngineState => Sys2Proof.Machine.execGetEngineState s
  | .getLastReport => Sys2Proof.Machine.execGetLastReport s
  | .getHoldQueue => Sys2Proof.Machine.execGetHoldQueue s
  | .getPowerGoodLevels => Sys2Proof.Machine.execGetPowerGoodLevels s
  | .getCounters => Sys2Proof.Machine.execGetCounters s
  | .getRetainedResumeArea => Sys2Proof.Machine.execGetRetainedResumeArea s
  | .getLoaderStatus => Sys2Proof.Machine.execGetLoaderStatus s
  | .clearWakeLatch => Sys2Proof.Machine.execClearWakeLatch s
  | .clearSuppressed => Sys2Proof.Machine.execClearSuppressed s
  | .clearRailFaults => Sys2Proof.Machine.execClearRailFaults s
  | .clearCounters => Sys2Proof.Machine.execClearCounters s
  | .managementRequestBadSelector => Sys2Proof.Machine.execManagementRequestBadSelector s
  | .downstreamTraffic => Sys2Proof.Machine.execDownstreamTraffic s
  | .upstreamAnswer => Sys2Proof.Machine.execUpstreamAnswer s
  | .matcherTakeMessage => Sys2Proof.Machine.execMatcherTakeMessage s
  | .orderDone => Sys2Proof.Machine.execOrderDone s
  | .orderTimeout position => Sys2Proof.Machine.execOrderTimeout position s
  | .awaitGoodTimeout position => Sys2Proof.Machine.execAwaitGoodTimeout position s
  | .lineSettleExpiry position => Sys2Proof.Machine.execLineSettleExpiry position s
  | .delayExpiry position => Sys2Proof.Machine.execDelayExpiry position s
  | .undoOrderTimeout => Sys2Proof.Machine.execUndoOrderTimeout s
  | .undoLineSettleExpiry => Sys2Proof.Machine.execUndoLineSettleExpiry s
  | .powerGoodChange line asserted => Sys2Proof.Machine.execPowerGoodChange line asserted s
  | .blankingExpiry domain => Sys2Proof.Machine.execBlankingExpiry domain s
  | .lineFilteredChange line high => Sys2Proof.Machine.execLineFilteredChange line high s
  | .buttonPress => Sys2Proof.Machine.execButtonPress s
  | .buttonRelease => Sys2Proof.Machine.execButtonRelease s
  | .pressTimerExpiry => Sys2Proof.Machine.execPressTimerExpiry s
  | .overrideTimerExpiry => Sys2Proof.Machine.execOverrideTimerExpiry s
  | .secondsStep => Sys2Proof.Machine.execSecondsStep s
  | .wakeTimerExpiry => Sys2Proof.Machine.execWakeTimerExpiry s
  | .stormWindowExpiry => Sys2Proof.Machine.execStormWindowExpiry s
  | .imageHeaderRead b0 b1 b2 b3 b4 => Sys2Proof.Machine.execImageHeaderRead b0 b1 b2 b3 b4 s
  | .imageReadComplete bytes => Sys2Proof.Machine.execImageReadComplete bytes s
  | .loaderRecordApply => Sys2Proof.Machine.execLoaderRecordApply s
  | .startDelimiterBeforeFrameEnd port => Sys2Proof.Machine.execStartDelimiterBeforeFrameEnd port s

end Sys2Proof.Machine
end

