-- ==== Sys2Proof/Machine/Clock.lean ====
section
/-! DEFINITION. What the part does with no command waiting: one event that is due, or else one edge of the slow clock,
which samples the input pins, advances the timers and moves the frames being sent. Log entry 10. -/

namespace Sys2Proof.Machine

/-! ## One edge of the slow clock -/

/-- A two-edge filter takes a sample (R85, R116, R151). -/
def Filter2.sample (f : Filter2) (high : Bool) : Filter2 := if high = f.level then ⟨f.level, 0⟩ else ⟨f.level, f.seen + 1⟩

/-- A Line Qualifier takes a sample (R112): a differing one begins a qualification or brings it one edge on. -/
def LineQualifier.sample (q : LineQualifier) (high : Bool) : LineQualifier :=
  if high = q.level then { q with qualifying := none }
  else match q.qualifying with
    | none => { q with qualifying := some (ticks q.filter) }
    | some n => { q with qualifying := some (n - 1) }

/-- The lines take a sample; the first edge after power-on reset gives each its level (R111). -/
def sampleLines (first : Bool) (lines : Vector LineQualifier 8) (levels : BitVec 8) : Vector LineQualifier 8 :=
  Vector.ofFn fun k =>
    if first then { lines[k] with level := hasBit levels k } else lines[k].sample (hasBit levels k)

/-- The ACOK filter takes a sample; the second edge after power-on reset gives it its level, the first none (R85). That edge is
no event, even where a loading has ended before it: ACOK first read ASSERTED there is no return of mains power, and the
after-loss policy is not applied again (R87, R179). DESIGN CHOICE, log entry 39. -/
def sampleAcok (porEdges : Nat) (f : Filter2) (high : Bool) : Filter2 :=
  match porEdges with
  | 0 => f
  | 1 => ⟨high, 0⟩
  | _ + 2 => f.sample high

/-- The qualifiers at an edge: filters, press and override timers, the seconds divider (R112, R116 to R118, R120). -/
def tickQualifiers (porEdges : Nat) (p : Pins) (q : Qualifiers) : Qualifiers :=
  { q with
    lines := sampleLines (decide (porEdges = 0)) q.lines p.wakeLines,
    button := { q.button with
      state := q.button.state.sample p.button, pressTimer := tickTimer q.button.pressTimer,
      overrideTimer := tickTimer q.button.overrideTimer },
    acok := sampleAcok porEdges q.acok p.acok,
    divider := (q.divider + 1) % 32768,
    secondsDue := q.secondsDue || decide (q.divider = 32767) }

/-- The step timers at an edge (R49, R73, R75). -/
def tickEngine (e : Engine) : Engine :=
  { e with
    running := e.running.map fun m => { m with timer := tickTimer m.timer },
    undo := e.undo.map fun u => { u with timer := tickTimer u.timer } }

/-- The blanking timers at an edge (R157). -/
def tickDomains (t : DomainTable) : DomainTable :=
  { t with status := Vector.ofFn fun d => { t.status[d] with blanking := tickTimer t.status[d].blanking } }

/-- The power-good filters at an edge (R151). -/
def tickMonitor (p : Pins) (m : RailMonitor) : RailMonitor :=
  { m with pg := Vector.ofFn fun l => m.pg[l].sample (hasBit p.powerGood l) }

/-- A port at an edge: the frame being sent has been sent, or the oldest of the output FIFO begins if the receiver is
ready (R165). Log entry 11. A frame that is being sent has left its place of the output FIFO: DESIGN CHOICE, log entry 36. -/
def Port.tick (x : Port) (receiverReady : Bool) : Port :=
  match x.sending, x.output with
  | some _, _ => { x with sending := none }
  | none, f :: rest => if receiverReady then { x with sending := some f, output := rest } else x
  | none, [] => x

/-- One edge of the slow clock with the levels on the pins. -/
def slowEdge (p : Pins) (s : State) : State :=
  { s with
    dom := tickDomains s.dom,
    eng := tickEngine s.eng,
    wake := { s.wake with windowTimer := tickTimer s.wake.windowTimer },
    qual := tickQualifiers s.porEdges p s.qual,
    mon := tickMonitor p s.mon,
    up := s.up.tick p.upstreamReady,
    down := s.down.tick p.downstreamReady,
    pins := p,
    porEdges := min 2 (s.porEdges + 1) }

/-! ## The events that are due -/

/-- The expiry of a member's step timer (R49). -/
def dueMember (m : Member) : Option Instr :=
  if m.timer = some 0 then
    match m.plan.step.action with
    | .order _ _ _ => some (.orderTimeout m.plan.position)
    | .line _ _ _ _ => some (.lineSettleExpiry m.plan.position)
    | .awaitGood _ _ _ => some (.awaitGoodTimeout m.plan.position)
    | .delay _ => some (.delayExpiry m.plan.position)
  else none

/-- The expiry of the undo's timer (R74, R75). -/
def dueUndo (u : UndoRun) : Option Instr :=
  if u.timer = some 0 then
    match u.record.action with
    | .order _ _ => some .undoOrderTimeout
    | .line _ _ _ => some .undoLineSettleExpiry
  else none

/-- A filtered line is due to change its level (R112). -/
def dueLine (s : State) (k : WakeLine) : Option Instr :=
  if s.qual.lines[k].qualifying = some 0 then some (.lineFilteredChange k (!s.qual.lines[k].level)) else none

/-- A two-edge filter is due to change its level (R85, R116, R151). -/
def Filter2.due (f : Filter2) : Bool := decide (2 ≤ f.seen)

/-- A power-good line is due to change its deglitched level (R151). -/
def duePg (s : State) (l : PgLine) : Option Instr :=
  if s.mon.pg[l].due then some (.powerGoodChange l (!s.pgLevel l)) else none

/-- A blanking timer is due (R158). -/
def dueBlanking (s : State) (d : Domain) : Option Instr :=
  if s.dom.status[d].blanking = some 0 then some (.blankingExpiry d) else none

/-- A command that is due under a condition. -/
def dueIf (b : Bool) (i : Instr) : List Instr := if b then [i] else []

/-- Every event that is due now. With press and override timer due at one edge (v = p) the one event is the override expiry,
which latches source 0 and stops the press timer (R118). -/
def dueEvents (s : State) : List Instr :=
  s.eng.running.filterMap dueMember
  ++ s.eng.undo.toList.filterMap dueUndo
  ++ allWakeLines.filterMap (dueLine s)
  ++ allPgLines.filterMap (duePg s)
  ++ allDomains.filterMap (dueBlanking s)
  ++ dueIf s.qual.button.state.due (if s.qual.button.state.level then .buttonRelease else .buttonPress)
  ++ dueIf s.qual.acok.due (if s.qual.acok.level then .mainsLoss else .mainsReturn)
  ++ dueIf (decide (s.qual.button.pressTimer = some 0) && s.qual.button.pressExpires) .pressTimerExpiry
  ++ dueIf (decide (s.qual.button.overrideTimer = some 0)) .overrideTimerExpiry
  ++ dueIf s.qual.secondsDue .secondsStep
  ++ dueIf (decide (s.wake.windowTimer = some 0)) .stormWindowExpiry

/-- The event taken among those due: the manual gives no order, so the choice is free. Log entry 3. -/
def chooseDue (first : Instr) (rest : List Instr) (draw : Nat) : Instr :=
  match rest with
  | [] => first
  | _ :: _ => ((first :: rest)[Config.eventChoice draw % (rest.length + 1)]?).getD first

/-- The part with no command waiting: a due event, or the next edge of the slow clock. -/
def idle (s : State) : Host.Outcome State Fault Refusal :=
  match dueEvents s with
  | [] => .next (slowEdge (Config.pins s.draws) (s.withDraws (s.draws + 1)))
  | e :: rest => exec (chooseDue e rest s.draws) (s.withDraws (s.draws + 1))

end Sys2Proof.Machine
end

