-- ==== Sys2Proof/Safety.lean ====
section
/-! DEFINITION. What the statements are made of: what no event of the Engine, the Wake Unit or the Monitor touches, the
laws that hold in every state, and the situation of a request that waits to be taken. -/

namespace Sys2Proof.Machine

/-! ## What an event of the Engine leaves alone -/

/-- The Domain Table without its status records and the link state. -/
def DomainTable.kept (x : DomainTable) : DomainTable := ⟨x.config, DomainTable.initial.status, x.controller, x.agentMap, false⟩

/-- The tables of chapter 2 alone. -/
def Engine.kept (x : Engine) : Engine := { Engine.initial with directory := x.directory, store := x.store }

/-- The settings of the Wake Unit and its window timer. -/
def WakeUnit.kept (x : WakeUnit) : WakeUnit :=
  { WakeUnit.initial with
    enable := x.enable, maskStandby := x.maskStandby, maskHibernate := x.maskHibernate, maskSoftoff := x.maskSoftoff,
    threshold := x.threshold, window := x.window, windowTimer := x.windowTimer }

/-- The qualifiers without the sleep-duration counter. -/
def Qualifiers.kept (x : Qualifiers) : Qualifiers := { x with sleepCount := 0, sleepCounting := false }

/-- What the Upstream Port receives and sends, without the queues that the link state empties. -/
def Port.keptUp (x : Port) : Port := { x with own := [], output := [], forwarded := none }

/-- The Downstream Port without its own-frame queue. -/
def Port.keptDown (x : Port) : Port := { x with own := [] }

/-- The counters without DISCARDED. -/
def Counters.kept (x : Counters) : Counters := { x with discarded := 0 }

/-- A loading without the event deferred to its end. -/
def Loading.kept (x : Loading) : Loading := { x with deferred := none }

/-- The state with everything blanked out that an event of the Engine, the Wake Unit's latch or the Monitor may write:
status records and link state, the Engine's running state, the Wake Unit's sets, arm, context and counts, the
sleep-duration counter, the Hold Queue, the part's own frames, enable outputs, DISCARDED, a deferred event. Two states
with equal `kept` agree on everything else: tables, settings, qualifiers, input FIFOs, other counters, the Retained
Resume Area, pins and the queue of commands. -/
def State.kept (s : State) : State :=
  { s with
    dom := s.dom.kept, eng := s.eng.kept, wake := s.wake.kept, qual := s.qual.kept, gate := ⟨[], false⟩,
    up := s.up.keptUp, down := s.down.keptDown, lines := ⟨0#16, s.lines.safe⟩,
    mgmt := { s.mgmt with counters := s.mgmt.counters.kept },
    ldr := { s.ldr with loading := s.ldr.loading.map Loading.kept } }

/-! ## Laws that hold in every state -/

/-- The capacities of the queues of messages and frames and the ranges of the counters (R143, R162, R165, R170, R120, R121,
R123), and the canonical form of the Retained Resume Area, which is the model's own. -/
structure State.Bounded (s : State) : Prop where
  hold          : s.gate.hold.length ≤ 16
  upInput       : s.up.input.length ≤ 4
  downInput     : s.down.input.length ≤ 4
  upOwn         : s.up.own.length ≤ 24
  downOwn       : s.down.own.length ≤ 24
  upOutput      : s.up.output.length ≤ 4
  downOutput    : s.down.output.length ≤ 4
  frameErrorsUp : s.mgmt.counters.frameErrorsUp ≤ 255
  frameErrorsDn : s.mgmt.counters.frameErrorsDown ≤ 255
  discarded     : s.mgmt.counters.discarded ≤ 255
  stray         : s.mgmt.counters.stray ≤ 255
  late          : s.mgmt.counters.late ≤ 255
  holdOverflow  : s.mgmt.counters.holdOverflow ≤ 255
  wakeTimer     : s.qual.wakeTimer ≤ 16777215
  sleepCount    : s.qual.sleepCount ≤ 16777215
  divider       : s.qual.divider ≤ 32767
  retained      : Memory.wf s.mgmt.retained = true

/-- Source 0 is always in the Wake Enable set and never in an Entry Mask or the Suppressed set, its storm count stays 0
(R96, R97, R107), and the threshold and the other counts lie in their ranges (R106, R107). -/
structure State.SourceZeroHeld (s : State) : Prop where
  enabled        : s.wake.enable.getLsbD 0 = true
  standby        : s.wake.maskStandby.getLsbD 0 = false
  hibernate      : s.wake.maskHibernate.getLsbD 0 = false
  softoff        : s.wake.maskSoftoff.getLsbD 0 = false
  suppressed     : s.wake.suppressed.getLsbD 0 = false
  count          : s.wake.stormCount[0] = 0
  thresholdLow   : 1 ≤ s.wake.threshold
  thresholdHigh  : s.wake.threshold ≤ 255
  counts         : ∀ src : Source, s.wake.stormCount[src] ≤ 255

/-- The sleep state whose Entry Mask the Armed set follows, in the states in which that set may hold a source (R98). -/
def Platform.armsFor : Platform → Option Sleep
  | .rest f => some f
  | .entering t => some t
  | .working | .unwinding _ | .waking _ | .forcing => none

/-- The Wake Arm and the Armed set (R98, R100), an undo in flight in UNWINDING alone (R73), and the platform and the Armed set
during a loading: WORKING under a REINIT until a mains loss, else SOFTOFF, with nothing armed (R11, R98, R181). -/
structure State.ArmedRight (s : State) : Prop where
  arm     : s.wake.arm = s.eng.platform.isRest
  armed   : match s.eng.platform.armsFor with
    | some f => s.wake.armed &&& s.armedFor f = s.wake.armed
    | none => s.wake.armed = 0#16
  undo    : s.eng.undo.isSome = true → ∃ t, s.eng.platform = .unwinding t
  loading : ∀ l, s.ldr.loading = some l → s.wake.armed = 0#16 ∧
    s.eng.platform = if l.byReinit && !l.mainsLost then .working else .rest .softoff

/-- The upstream link state follows the controller domain's recorded state, and is UP while a REINIT holds it (R19). -/
def State.LinkRight (s : State) : Prop :=
  if s.linkHeld = true then s.dom.linkUp = true else s.dom.linkUp = decide (s.recorded s.dom.controller = .on)

/-- While the link is DOWN nothing waits to be sent on it (R20, R165). -/
def State.QuietWhenDown (s : State) : Prop :=
  s.dom.linkUp = false → s.up.own = [] ∧ s.up.output = [] ∧ s.up.forwarded = none

/-- The bounds and the agreement of the Engine's tables in every state that a run reaches (R2, R40, R47, R50, R71, R73). -/
structure State.EngineRight (s : State) : Prop where
  /-- With no transition in progress nothing is planned, runs, is ordered or is to be undone (R2, R40). -/
  atRest        : s.eng.platform.transitional = false → s.eng.plan = none ∧ s.eng.running = [] ∧ s.eng.orders = [] ∧
    s.eng.rising = 0#12
  /-- A group has at most four members, on positions of their own; no two are ORDERs to one agent (R34, R36, R47). -/
  members       : s.eng.running.length ≤ 4
  positions     : s.eng.running.Pairwise fun x y => x.plan.position ≠ y.plan.position
  agents        : s.eng.running.Pairwise fun x y => ∀ a, s.orderAgent x.plan.step.action = some a →
    s.orderAgent y.plan.step.action ≠ some a
  /-- The steps left to start keep the conditions of R36, on positions of their own and of no running member. -/
  structured    : structureFault s GroupSeen.start s.unstarted = none
  unstarted     : s.unstarted.Pairwise fun x y => x.position ≠ y.position
  apart         : ∀ m ∈ s.eng.running, ∀ q ∈ s.unstarted, m.plan.position ≠ q.position
  /-- The Outstanding Order Table holds at most four entries, each to an agent of its own (R50). -/
  orders        : s.eng.orders.length ≤ 4
  ordersApart   : s.eng.orders.Pairwise fun x y => x.agent ≠ y.agent
  /-- An entry is the one of a running ORDER, by its position, or of the undo in flight (R50, R73). -/
  ordersRun     : ∀ o ∈ s.eng.orders, ∀ p, o.position = some p → ∃ m ∈ s.eng.running, m.plan.position = p ∧
    s.orderAgent m.plan.step.action = some o.agent
  ordersUndo    : ∀ o ∈ s.eng.orders, o.position = none → s.eng.undo.isSome = true ∧ s.eng.orders = [o]
  /-- While an undo runs, no member does (R73). -/
  undoing       : ∀ t, s.eng.platform = .unwinding t → s.eng.running = [] ∧ s.eng.plan = none
  /-- The Undo Stack holds at most 32 records, with room for those that the entry may still push, and none outside ENTERING
  and UNWINDING (R71). -/
  stack         : s.eng.undoStack.length ≤ 32
  stackRoom     : ∀ t, s.eng.platform = .entering t →
    s.eng.undoStack.length + s.eng.running.length + s.unstarted.length ≤ 32
  stackEmpty    : (∀ t, s.eng.platform ≠ .entering t) → (∀ t, s.eng.platform ≠ .unwinding t) → s.eng.undoStack = []
  /-- An abort is pending in ENTERING alone, a forcing cause is held in FORCING alone, and no domain rises there (R68, R79). -/
  abort         : s.eng.abortPending.isSome = true → ∃ t, s.eng.platform = .entering t
  cause         : s.eng.forcingCause.isSome = true → s.eng.platform = .forcing
  forcingRising : s.eng.platform = .forcing → s.eng.rising = 0#12
  /-- A sequence has at most 32 steps (R22). -/
  directory     : ∀ k : Fin 7, s.eng.directory[k].count ≤ 32

/-! ## The structure of a sequence -/

/-- Every step from position a to the one before b has join 1, so that the positions a and b lie in one group (R34). -/
def JoinedFrom (steps : List PlanStep) (a b : Nat) : Prop :=
  a ≤ b ∧ ∀ k, a ≤ k → k < b → ∃ x, steps[k]? = some x ∧ x.step.join = true

/-- The step at position p breaks one of the five conditions of R36: the fifth member of its group; the last step with join 1;
an ORDER to the agent of an earlier ORDER of its group; a LINE on the line of an earlier LINE of its group; the last member
of a group of two or more, guarded. -/
def State.BreaksAt (s : State) (steps : List PlanStep) (p : Nat) (q : PlanStep) : Prop :=
  steps[p]? = some q ∧
  ((4 ≤ p ∧ JoinedFrom steps (p - 4) p) ∨
   (p + 1 = steps.length ∧ q.step.join = true) ∨
   (∃ (a : Nat) (x : PlanStep) (d e : Domain) (t u : OrdState) (v w : Bool) (agent : Addr),
     a < p ∧ JoinedFrom steps a p ∧ steps[a]? = some x ∧ x.step.action = .order d t v ∧ q.step.action = .order e u w ∧
     (s.config d).agent = some agent ∧ (s.config e).agent = some agent) ∨
   (∃ (a : Nat) (x : PlanStep) (l : EnLine) (c d : Option (Domain × Option OrdState)) (h i v w : Bool),
     a < p ∧ JoinedFrom steps a p ∧ steps[a]? = some x ∧ x.step.action = .line c l h v ∧ q.step.action = .line d l i w) ∨
   (1 ≤ p ∧ JoinedFrom steps (p - 1) p ∧ q.step.join = false ∧ q.step.guard ≠ .always))

/-! ## A request at the head of the Upstream Port input FIFO -/

/-- The frame waits at the head of the Upstream Port input FIFO as a request to the part, and the Management Unit may take
it (R162, R163, R165, R166). -/
structure State.Waiting (s : State) (f : Frame) : Prop where
  link    : s.dom.linkUp = true
  loaded  : s.ldr.loading = none
  free    : s.mgmt.serving = none
  room    : s.up.own.length < 24
  head    : s.up.input.head? = some f
  source  : f.src = 0#6
  dest    : f.dest = 63#6
  proxy   : f.proxy = false

/-- The state after a request has been taken and answered, and nothing else has been done: the frame has left the input
FIFO, and the RESULT from 63 to 0 with its tag and proxy flag 0 has joined the own-frame queue (R166). -/
def State.answered (s : State) (f : Frame) (payload : List Byte) : State :=
  { s with up := { s.up with
      input := s.up.input.tail, own := s.up.own ++ [⟨0#6, 63#6, .result, f.tag, false, payload⟩] } }

/-- The part's state with a frame taken from the Upstream Port input FIFO and counted in DISCARDED. -/
def State.upDiscarded (s : State) : State :=
  { s with
    up := { s.up with input := s.up.input.tail },
    mgmt := { s.mgmt with counters := { s.mgmt.counters with discarded := min 255 (s.mgmt.counters.discarded + 1) } } }

/-- Every power-good line that a domain names is ASSERTED, so the Monitor has nothing to latch. -/
def State.RailsGood (s : State) : Prop :=
  ∀ (d : Domain) (l : PgLine), (s.config d).pgLine = some l → s.pgLevel l = true

/-! ## Messages and ORDER-DONEs at the head of an input FIFO -/

/-- A downstream message waits at the head of the Upstream Port input FIFO and the Gate may take it (R138, R144, R162). -/
structure State.DownMessage (s : State) (f : Frame) : Prop where
  link     : s.dom.linkUp = true
  loaded   : s.ldr.loading = none
  free     : s.down.forwarded = none
  head     : s.up.input.head? = some f
  source   : f.src = 0#6
  proxy    : f.proxy = false
  destLow  : f.dest ≠ 0#6
  destHigh : f.dest ≠ 63#6
  kind     : f.kind = .note ∨ f.kind = .ask ∨ f.kind = .answer

/-- A frame from an agent waits at the head of the Downstream Port input FIFO, and nothing keeps upstream traffic from being
taken (R137, R144, R147, R162). -/
structure State.UpMessage (s : State) (f : Frame) : Prop where
  loaded     : s.ldr.loading = none
  flowing    : s.dom.linkUp = true → ∀ r ∈ s.gate.hold, r.up = false
  free       : s.up.forwarded = none
  head       : s.down.input.head? = some f
  sourceLow  : f.src ≠ 0#6
  sourceHigh : f.src ≠ 63#6
  proxy      : f.proxy = false
  dest       : f.dest = 0#6

/-- An ORDER-DONE waits at the head of the Downstream Port input FIFO (R164, R52). -/
structure State.DoneWaits (s : State) (f : Frame) : Prop where
  loaded     : s.ldr.loading = none
  head       : s.down.input.head? = some f
  sourceLow  : f.src ≠ 0#6
  sourceHigh : f.src ≠ 63#6
  proxy      : f.proxy = false
  dest       : f.dest = 63#6
  kind       : f.kind = .orderDone

/-- The state with the head of the Upstream Port input FIFO taken. -/
def State.upTaken (s : State) : State := { s with up := { s.up with input := s.up.input.tail } }

/-- The state with the head of the Downstream Port input FIFO taken. -/
def State.downTaken (s : State) : State := { s with down := { s.down with input := s.down.input.tail } }

/-- DISCARDED rises by one. -/
def State.discardedOne (s : State) : State :=
  { s with mgmt := { s.mgmt with counters := { s.mgmt.counters with
      discarded := min 255 (s.mgmt.counters.discarded + 1) } } }

/-- HOLD-OVERFLOW rises by one. -/
def State.overflowOne (s : State) : State :=
  { s with mgmt := { s.mgmt with counters := { s.mgmt.counters with
      holdOverflow := min 255 (s.mgmt.counters.holdOverflow + 1) } } }

/-- A frame joins the Upstream Port's own-frame queue. -/
def State.upQueued (s : State) (f : Frame) : State := { s with up := { s.up with own := s.up.own ++ [f] } }

/-- A frame joins the Downstream Port's own-frame queue. -/
def State.downQueued (s : State) (f : Frame) : State := { s with down := { s.down with own := s.down.own ++ [f] } }

/-- The answer that the Gate gives for the party an ASK was addressed to: ASLEEP is 1, HOLD-FULL is 2 (R140). -/
def gateAnswer (ask : Frame) (status : Byte) : Frame := ⟨ask.src, ask.dest, .answer, ask.tag, true, [status]⟩

/-- A downstream message is refused: an ASK is answered ASLEEP, any other kind is discarded and counted (R140). -/
def State.downRefused (s : State) (f : Frame) : State :=
  if f.kind = .ask then s.upTaken.upQueued (gateAnswer f 1#8) else s.upTaken.discardedOne

/-- A downstream message is held, or refused for a full Hold Queue: counted, an ASK answered HOLD-FULL (R141). -/
def State.downHeld (s : State) (f : Frame) (releasable : Bool) : State :=
  if s.gate.hold.length < 16 then
    { s.upTaken with gate := { s.gate with hold := s.gate.hold ++ [⟨false, f, releasable⟩] } }
  else if f.kind = .ask then s.upTaken.overflowOne.upQueued (gateAnswer f 2#8) else s.upTaken.overflowOne

/-- An upstream message is discarded and counted, an ASK answered ASLEEP (R142). -/
def State.upDropped (s : State) (f : Frame) : State :=
  if f.kind = .ask then s.downTaken.discardedOne.downQueued (gateAnswer f 1#8) else s.downTaken.discardedOne

/-- An upstream message is kept as an UP record, or refused for a full Hold Queue (R142, R143). -/
def State.upKept (s : State) (f : Frame) (releasable : Bool) : State :=
  if s.gate.hold.length < 16 then
    { s.downTaken with gate := { s.gate with hold := s.gate.hold ++ [⟨true, f, releasable⟩] } }
  else if f.kind = .ask then s.downTaken.overflowOne.downQueued (gateAnswer f 2#8) else s.downTaken.overflowOne

/-- The entry selects the message (R128). -/
def MatchEntry.Selects (e : MatchEntry) (f : Frame) : Prop :=
  e.valid = true ∧ (∀ a, e.agent = some a → a = f.src) ∧ (∀ k, e.kind = some k → k = f.kind)

/-- The entry is the hit for the message: it selects it and its field test passes, and no entry of a lower index both selects
it and passes (R128). -/
def State.Hits (s : State) (f : Frame) (i : Fin 24) : Prop :=
  s.matcher.table[i].Selects f ∧ testPasses s.matcher.table[i] f.payload = true ∧
  ∀ j : Fin 24, j < i → ¬ (s.matcher.table[j].Selects f ∧ testPasses s.matcher.table[j] f.payload = true)

/-- The table after a scan that hit entry i: entries that selected the message and failed have run count 0, the hit has the
run count given, and every other entry is as it was (R128, R132). -/
def State.TableAfterHit (s : State) (f : Frame) (i : Fin 24) (run : Nat) (table : Vector MatchEntry 24) : Prop :=
  table[i] = { s.matcher.table[i] with run := run } ∧
  (∀ j : Fin 24, j < i → s.matcher.table[j].Selects f → table[j] = { s.matcher.table[j] with run := 0 }) ∧
  (∀ j : Fin 24, j < i → ¬ s.matcher.table[j].Selects f → table[j] = s.matcher.table[j]) ∧
  (∀ j : Fin 24, i < j → table[j] = s.matcher.table[j])

/-! ## Members of a group -/

/-- A step other than those that have ended ends in ON for the domain: a member of the list, or a step not yet started. -/
def State.laterOn (s : State) (others : List Member) (d : Domain) : Bool :=
  others.any (fun m => decide (m.plan.step.action.endsOn = some d))
  || s.unstarted.any (fun q => decide (q.step.action.endsOn = some d))

/-- The Rising set after the end of a member: its domain leaves with its last ON-ending step (R46). -/
def State.risingWithout (s : State) (others : List Member) (m : Member) : DomainSet :=
  match m.plan.step.action.endsOn with
  | some d => if s.laterOn others d then s.eng.rising else s.eng.rising &&& ~~~ BitVec.twoPow 12 d
  | none => s.eng.rising

/-- The state after a member has ended with the others running on: the member and its table entry are gone, undo records
have been pushed, the Rising set follows (R57, R58). -/
def State.memberEnded (s : State) (others : List Member) (m : Member) (pushed : List UndoRecord) : State :=
  { s with eng := { s.eng with
      running := others,
      orders := s.eng.orders.filter fun o => decide (o.position ≠ some m.plan.position),
      undoStack := pushed ++ s.eng.undoStack,
      rising := s.risingWithout others m } }

/-- A domain's recorded state and last fault cause are written, and nothing else: the domain is not the controller's, and
no record is held. -/
def State.recordedAs (s : State) (d : Domain) (st : DomState) (cause : Option FaultCause) : State :=
  let record : DomainStatus := { s.dom.status[d] with recorded := st, lastCause := cause }
  { s with dom := { s.dom with status := s.dom.status.set d record } }

/-- The held DOWN record's destination belongs to a domain of the Rising set that is not ON (R148). -/
def State.HeldForRising (s : State) (r : HoldRecord) : Bool :=
  !r.up && (s.mapped r.frame.dest).any fun (d : Domain) => s.eng.rising.getLsbD d && decide (s.recorded d ≠ .on)

/-- The Hold Queue after the release of a domain: the DOWN records whose destination the Agent Map gives as it are
releasable (R145). -/
def State.released (s : State) (d : Domain) : List HoldRecord :=
  s.gate.hold.map fun r => if r.up = false ∧ s.mapped r.frame.dest = some d then { r with releasable := true } else r

/-- A member runs and others with it; no two running members have one position. -/
structure State.RunsWith (s : State) (m : Member) (before after : List Member) : Prop where
  running : s.eng.running = before ++ m :: after
  others  : before ++ after ≠ []
  unique  : ∀ x ∈ before ++ after, x.plan.position ≠ m.plan.position

/-- A member is the only one running, and no step of the Plan is left to start. -/
structure State.RunsLast (s : State) (m : Member) : Prop where
  running : s.eng.running = [m]
  last    : s.unstarted = []

/-! ## The latch of a source -/

/-- The state after a latch event that is not counted and not an armed latch: the bit is set and, if it was clear, the
generation advances and EVENT SOURCE is queued while the link is UP (R91, R93, R95). -/
def State.latched (s : State) (src : Source) : State :=
  if s.wake.latch.getLsbD src then s
  else
    let generation := s.wake.generation + 1#16
    let s1 : State := { s with wake := { s.wake with
      latch := s.wake.latch ||| BitVec.twoPow 16 src, generation := generation } }
    if s.dom.linkUp then
      s1.upQueued ⟨0#6, 63#6, .event, 0#4, false, [0#8, BitVec.ofNat 8 src] ++ bytes16 generation⟩
    else s1

/-- Every domain is recorded OFF and nothing else of its status is changed (R82). -/
def State.AllOffAfter (s t : State) : Prop :=
  ∀ d : Domain, t.dom.status[d] = { s.dom.status[d] with recorded := .off }

end Sys2Proof.Machine
end

