-- ==== Sys2Proof/Certificates/Slice0/Obligations.lean ====
section
/-! DEFINITION. The statements for the provers. -/

open Sys2Proof Sys2Proof.Machine

/-! ## The queue and the idle block -/

/-- A step takes the command at the front of the queue and is the command's effect with the queue's rest. The queue is
the model's own: log entry 10. -/
def Obligations.StepRunsFrontCommand : Prop :=
  ∀ (c : Instr) (rest : List Instr) (s : State), s.pending = c :: rest → step s = exec c (s.withPending rest)

/-- With no command waiting, the one event that is due is taken, and with none due the slow clock makes an edge with the
levels on the pins. The model's own choice, log entry 10; the expiries and filters are R39, R112, R120. -/
def Obligations.IdleTakesDueEventOrEdge : Prop :=
  ∀ s : State, s.pending = [] →
    (∀ c, dueEvents s = [c] → step s = exec c (s.withDraws (s.draws + 1))) ∧
    (dueEvents s = [] → step s = .next (slowEdge (Config.pins s.draws) (s.withDraws (s.draws + 1))))

/-- Every command answers a next state in every state, and leaves the queue of waiting commands as it is. Both are the
model's own choice and no rule's: a command whose event cannot occur leaves the state as it is (log entry 1), the queue is
the model's (log entry 10), and power-on reset keeps it (log entry 25). Section 4 only names the blocks whose events the
commands are. -/
def Obligations.EveryCommandCompletesAndKeepsQueue : Prop :=
  ∀ (c : Instr) (s : State), ∃ t, exec c s = .next t ∧ t.pending = s.pending

/-! ## Power -/

/-- Power-on reset gives every block its power-on value, and a loading starts (R174): the Domain Table (R13, R14, R15, R18),
the Engine (R22, R25, R40, R71), the Wake Unit, the qualifiers but for the filtered levels that the first edges give
(R111, R116, R120, R121, R123), the Rail Monitor (R151), the Matcher (R125), the Gate (R138), the ports and counters. -/
def Obligations.PowerOnResetGivesInitialState : Prop :=
  ∀ s : State, ∃ t, exec .powerOnReset s = .next t ∧
    t.eng.platform = .rest .softoff ∧ (∀ d : Domain, t.dom.status[d] = ⟨.off, .noFault, none, none⟩) ∧ t.dom.linkUp = false ∧
    t.eng.plan = none ∧ t.eng.running = [] ∧ t.eng.orders = [] ∧ t.eng.tag = 0#4 ∧ t.eng.rising = 0#12 ∧
    t.eng.abortPending = none ∧ t.eng.forcingCause = none ∧ t.eng.undoStack = [] ∧ t.eng.undo = none ∧
    (∀ l : PgLine, t.pgLevel l = false) ∧ t.lines.levels = 0#16 ∧ t.lines.safe = 0#16 ∧
    t.wake.arm = true ∧ t.wake.armed = 0#16 ∧ t.wake.latch = 0#16 ∧ t.wake.generation = 0#16 ∧
    t.wake.suppressed = 0#16 ∧ (∀ src : Source, t.wake.stormCount[src] = 0) ∧ t.wake.windowTimer = none ∧
    t.qual.wakeTimer = 0 ∧ t.qual.divider = 0 ∧ t.qual.sleepCount = 0 ∧ t.qual.sleepCounting = true ∧
    (∀ i : Fin 128, t.eng.store[i] = StepRecord.empty) ∧ (∀ k : Fin 7, t.eng.directory[k] = DirEntry.empty) ∧
    (∀ d : Domain, t.dom.config[d] = DomainConfig.empty) ∧ t.dom.controller = 0 ∧
    (∀ i : Fin 62, t.dom.agentMap[i] = none) ∧ (∀ i : Fin 24, t.matcher.table[i] = MatchEntry.empty) ∧
    t.wake.enable = 1#16 ∧ t.wake.maskStandby = 0#16 ∧ t.wake.maskHibernate = 0#16 ∧ t.wake.maskSoftoff = 0#16 ∧
    t.wake.threshold = 1 ∧ t.wake.window = 0#8 ∧ (∀ k : WakeLine, t.qual.lines[k].mode = .disabled ∧ t.qual.lines[k].filter = 0x00#8) ∧
    t.qual.button.pressMinimum = 0x49#8 ∧ t.qual.button.override = 0xE8#8 ∧ t.qual.afterLoss = .stayOff ∧
    t.qual.button.state.level = false ∧ t.qual.button.latched = false ∧ t.qual.button.overridden = false ∧
    t.qual.button.pressTimer = none ∧ t.qual.button.overrideTimer = none ∧
    t.gate.hold = [] ∧ t.gate.permit = false ∧ t.up.forwarded = none ∧ t.down.forwarded = none ∧ t.mgmt.counters = ⟨0, 0, 0, 0, 0, 0⟩ ∧
    t.up.input = [] ∧ t.up.own = [] ∧ t.up.output = [] ∧ t.down.input = [] ∧ t.down.own = [] ∧ t.down.output = [] ∧
    t.eng.lastReport = none ∧ t.wake.context = none ∧ (∀ a, Memory.read t.mgmt.retained a = 0#8) ∧
    t.ldr.status = .loaded ∧ t.ldr.loading.isSome = true

/-- Mains loss is taken in every state: what runs is cancelled, the Hold Queue is cleared, safe levels are driven, every
domain is recorded OFF with its fault field and cause kept, the link is DOWN, the platform SOFTOFF and armed, and the Last
Report reads FORCED, AC-LOSS, with the index of the sequence that ran (R85, R86). What R85 lists as left alone is left
alone: the Wake Latch, the generation, the Wake Timer, the Wake Context, the fault fields, all configuration and the tag
counter; so is what no step of R85 touches: the Suppressed set, the storm counts and window, the button's record, the
deglitched levels (R151), the divider (R120) and the Retained Resume Area. The Armed set is the one computed for SOFTOFF unless a loading goes on (R181). -/
def Obligations.MainsLossCutsEverythingOff : Prop :=
  ∀ s : State, s.qual.acok.level = true → ∃ t, exec .mainsLoss s = .next t ∧
    t.qual.acok.level = false ∧
    t.eng.plan = none ∧ t.eng.running = [] ∧ t.eng.orders = [] ∧ t.eng.undoStack = [] ∧ t.eng.undo = none ∧
    t.eng.abortPending = none ∧ t.eng.forcingCause = none ∧ t.eng.rising = 0#12 ∧
    t.gate.hold = [] ∧ t.gate.permit = false ∧
    t.lines.levels = s.lines.safe ∧ t.lines.safe = s.lines.safe ∧
    (∀ d, t.recorded d = .off) ∧
    (∀ d : Domain, t.dom.status[d].fault = s.dom.status[d].fault ∧
      t.dom.status[d].lastCause = s.dom.status[d].lastCause ∧ t.dom.status[d].blanking = s.dom.status[d].blanking) ∧
    t.dom.linkUp = false ∧
    t.eng.platform = .rest .softoff ∧ t.wake.arm = true ∧
    (s.isLoading = false → t.wake.armed = s.armedFor .softoff) ∧ (s.isLoading = true → t.wake.armed = 0#16) ∧
    t.qual.sleepCount = 0 ∧ t.qual.sleepCounting = true ∧
    t.eng.lastReport = some ⟨s.eng.platform.sequence, .forced, .acLoss, none, none, 0#12⟩ ∧
    t.wake.latch = s.wake.latch ∧ t.wake.generation = s.wake.generation ∧ t.wake.context = s.wake.context ∧
    t.qual.wakeTimer = s.qual.wakeTimer ∧ t.eng.tag = s.eng.tag ∧
    t.wake.enable = s.wake.enable ∧ t.wake.maskStandby = s.wake.maskStandby ∧
    t.wake.maskHibernate = s.wake.maskHibernate ∧ t.wake.maskSoftoff = s.wake.maskSoftoff ∧
    t.wake.threshold = s.wake.threshold ∧ t.wake.window = s.wake.window ∧ t.wake.windowTimer = s.wake.windowTimer ∧
    t.wake.suppressed = s.wake.suppressed ∧ t.wake.stormCount = s.wake.stormCount ∧
    t.qual.lines = s.qual.lines ∧ t.qual.button = s.qual.button ∧ t.qual.afterLoss = s.qual.afterLoss ∧
    t.qual.divider = s.qual.divider ∧ t.dom.controller = s.dom.controller ∧ t.mon = s.mon ∧
    t.eng.store = s.eng.store ∧ t.eng.directory = s.eng.directory ∧ t.dom.config = s.dom.config ∧
    t.dom.agentMap = s.dom.agentMap ∧ t.matcher = s.matcher ∧ t.mgmt.retained = s.mgmt.retained

/-- The return of mains power in SOFTOFF, with no loading in progress: under POWER-ON a wake is accepted with reason
POWER-RESTORE and the context of the event; under STAY-OFF, and in any other platform state, only the filtered level
changes (R87). A sequence whose Plan completes at once is not shut out, so the platform state after it is not said. -/
def Obligations.MainsReturnAppliesAfterLossPolicy : Prop :=
  ∀ s : State, s.qual.acok.level = false → s.ldr.loading = none → s.RailsGood →
    ((s.qual.afterLoss = .stayOff ∨ s.eng.platform ≠ .rest .softoff) →
      exec .mainsReturn s = .next { s with qual := { s.qual with acok := ⟨true, 0⟩ } }) ∧
    (s.qual.afterLoss = .powerOn → s.eng.platform = .rest .softoff →
      ∃ t, exec .mainsReturn s = .next t ∧ t.qual.acok.level = true ∧
        t.wake.context = some ⟨.softoff, .powerRestore, s.wake.latch, s.wake.armed, s.qual.sleepCount⟩ ∧
        t.wake.latch = s.wake.latch ∧ t.wake.generation = s.wake.generation)

/-! ## Frames and ports -/

/-- The duration of every time code is n times 4 to the e for c = 32 e + n (R38). -/
def Obligations.TimeCodeIsMantissaTimesPowerOfFour : Prop :=
  ∀ e n : Nat, e < 8 → n < 32 → ticks (BitVec.ofNat 8 (32 * e + n)) = n * 4 ^ e

/-- The bytes of a frame are read back as the frame, with every field at every value (R161, section 10.10). -/
def Obligations.FrameBytesReadBack : Prop :=
  ∀ f : Frame, f.payload.length ≤ 32 → checkFrame (frameBytes f) = .good f

/-- A good frame that began while ready was asserted joins the tail of the port's input FIFO; at the Upstream Port with the
link DOWN it is discarded and counted. Nothing else changes (R161, R162, R20). -/
def Obligations.GoodFrameJoinsInputFifo : Prop :=
  ∀ (s : State) (f : Frame), f.payload.length ≤ 32 →
    (s.up.receiving ≠ some false → s.up.input.length < 4 → s.dom.linkUp = true →
      exec (.frameReceived .upstream true (frameBytes f)) s =
        .next { s with up := { s.up with input := s.up.input ++ [f], receiving := none } }) ∧
    (s.up.receiving ≠ some false → s.up.input.length < 4 → s.dom.linkUp = false →
      exec (.frameReceived .upstream true (frameBytes f)) s = .next { s with
        up := { s.up with receiving := none },
        mgmt := { s.mgmt with counters := { s.mgmt.counters with
          discarded := min 255 (s.mgmt.counters.discarded + 1) } } }) ∧
    (s.down.receiving ≠ some false → s.down.input.length < 4 →
      exec (.frameReceived .downstream true (frameBytes f)) s =
        .next { s with down := { s.down with input := s.down.input ++ [f], receiving := none } })

/-- A frame whose length field is above 32, whose kind is 14 or 15, whose must-be-zero bits are set or whose CRC does not
match, or that began while ready was deasserted, is discarded and counted at its port, and nothing enters the FIFO (R161).
So is an incomplete frame that a delimiter cuts short; the next frame then begins at once. -/
def Obligations.FrameErrorsAreCountedAtTheirPort : Prop :=
  (∀ (s : State) (r : Bool) (b0 b1 b2 b3 : Byte) (rest : List Byte),
    ((b3 &&& 0x3F#8).toNat > 32 ∨
      ((b3 &&& 0x3F#8).toNat + 2 = rest.length ∧
        (14 ≤ (b1 &&& 0x0F#8).toNat ∨ b2 &&& 0x07#8 ≠ 0#8 ∨ b3 &&& 0xC0#8 ≠ 0#8 ∨
          bytes16 (crc16 ([b0, b1, b2, b3] ++ rest.take (rest.length - 2))) ≠ rest.drop (rest.length - 2)))) →
    exec (.frameReceived .upstream r (b0 :: b1 :: b2 :: b3 :: rest)) s =
      .next { s with
        up := { s.up with receiving := none },
        mgmt := { s.mgmt with counters := { s.mgmt.counters with
          frameErrorsUp := min 255 (s.mgmt.counters.frameErrorsUp + 1) } } } ∧
    exec (.frameReceived .downstream r (b0 :: b1 :: b2 :: b3 :: rest)) s =
      .next { s with
        down := { s.down with receiving := none },
        mgmt := { s.mgmt with counters := { s.mgmt.counters with
          frameErrorsDown := min 255 (s.mgmt.counters.frameErrorsDown + 1) } } }) ∧
  (∀ (s : State) (f : Frame) (r : Bool), f.payload.length ≤ 32 → s.down.receiving.getD r = false →
    exec (.frameReceived .downstream r (frameBytes f)) s =
      .next { s with
        down := { s.down with receiving := none },
        mgmt := { s.mgmt with counters := { s.mgmt.counters with
          frameErrorsDown := min 255 (s.mgmt.counters.frameErrorsDown + 1) } } }) ∧
  (∀ (s : State) (f : Frame) (r : Bool), f.payload.length ≤ 32 → s.up.receiving.getD r = false →
    exec (.frameReceived .upstream r (frameBytes f)) s =
      .next { s with
        up := { s.up with receiving := none },
        mgmt := { s.mgmt with counters := { s.mgmt.counters with
          frameErrorsUp := min 255 (s.mgmt.counters.frameErrorsUp + 1) } } }) ∧
  (∀ s : State,
    exec (.startDelimiterBeforeFrameEnd .upstream) s =
      .next { s with
        up := { s.up with receiving := some (decide (s.up.input.length < 4)) },
        mgmt := { s.mgmt with counters := { s.mgmt.counters with
          frameErrorsUp := min 255 (s.mgmt.counters.frameErrorsUp + 1) } } } ∧
    exec (.startDelimiterBeforeFrameEnd .downstream) s =
      .next { s with
        down := { s.down with receiving := some (decide (s.down.input.length < 4)) },
        mgmt := { s.mgmt with counters := { s.mgmt.counters with
          frameErrorsDown := min 255 (s.mgmt.counters.frameErrorsDown + 1) } } })

/-- Misdirected frames are taken, discarded and counted, and nothing else changes: at the Upstream Port while the link is
UP (R163), at the Downstream Port, past waiting traffic frames (R164); and every frame of the Upstream Port input
FIFO while the link is DOWN (R20). That a frame goes past traffic with the upstream path stalled or not is the model's
reading of R162's "may be taken past them" and R147: log entry 23. -/
def Obligations.MisdirectedFramesAreDiscarded : Prop :=
  (∀ (s : State) (f : Frame) (rest : List Frame), s.up.input = f :: rest → s.ldr.loading = none → s.dom.linkUp = true →
    (f.src ≠ 0#6 ∨ f.proxy = true ∨ f.dest = 0#6 ∨
      (f.dest = 63#6 ∧ f.kind ∉ [Kind.set, .get, .go, .clear]) ∨
      (f.dest ≠ 63#6 ∧ f.kind ∉ [Kind.note, .ask, .answer])) →
    exec .upstreamRoutingDiscard s = .next s.upDiscarded) ∧
  (∀ (s : State) (f : Frame) (rest : List Frame), s.up.input = f :: rest → s.ldr.loading = none → s.dom.linkUp = false →
    exec .linkDownInputDiscard s = .next s.upDiscarded) ∧
  (∀ (s : State) (f : Frame) (before after : List Frame), s.down.input = before ++ f :: after → s.ldr.loading = none →
    (∀ g ∈ before, g.src ≠ 0#6 ∧ g.src ≠ 63#6 ∧ g.proxy = false ∧ g.dest = 0#6 ∧
      g.kind ∈ [Kind.note, .ask, .alert, .answer]) →
    (f.src = 0#6 ∨ f.src = 63#6 ∨ f.proxy = true ∨
      (f.dest = 0#6 ∧ f.kind ∉ [Kind.note, .ask, .alert, .answer]) ∨
      (f.dest = 63#6 ∧ f.kind ≠ .orderDone) ∨ (f.dest ≠ 0#6 ∧ f.dest ≠ 63#6)) →
    exec .downstreamRoutingDiscard s = .next { s with
      down := { s.down with input := before ++ after },
      mgmt := { s.mgmt with counters := { s.mgmt.counters with
        discarded := min 255 (s.mgmt.counters.discarded + 1) } } })

/-- A free place of an output FIFO is filled from the first of the three that has a frame: the own-frame queue, the oldest
releasable record bound for the port, which leaves the Hold Queue, the forwarded message (R165, R144). -/
def Obligations.ArbiterFillsInOrder : Prop :=
  (∀ (s : State) (f : Frame) (rest : List Frame), s.down.output.length < 4 → s.down.own = f :: rest →
    exec (.outputArbiterFill .downstream) s =
      .next { s with down := { s.down with own := rest, output := s.down.output ++ [f] } }) ∧
  (∀ (s : State) (f : Frame) (rest : List Frame), s.up.output.length < 4 → s.dom.linkUp = true → s.up.own = f :: rest →
    exec (.outputArbiterFill .upstream) s =
      .next { s with up := { s.up with own := rest, output := s.up.output ++ [f] } }) ∧
  (∀ (s : State) (r : HoldRecord) (before after : List HoldRecord), s.down.output.length < 4 → s.down.own = [] →
    s.gate.hold = before ++ r :: after → r.up = false → r.releasable = true →
    (∀ x ∈ before, x.up = true ∨ x.releasable = false) →
    exec (.outputArbiterFill .downstream) s =
      .next { s with
        gate := { s.gate with hold := before ++ after },
        down := { s.down with output := s.down.output ++ [{ r.frame with proxy := false }] } }) ∧
  (∀ (s : State) (r : HoldRecord) (before after : List HoldRecord), s.up.output.length < 4 → s.dom.linkUp = true →
    s.up.own = [] → s.gate.hold = before ++ r :: after → r.up = true → r.releasable = true →
    (∀ x ∈ before, x.up = false ∨ x.releasable = false) →
    exec (.outputArbiterFill .upstream) s =
      .next { s with
        gate := { hold := before ++ after,
                  permit := s.gate.permit && (before ++ after).any fun x => x.up },
        up := { s.up with output := s.up.output ++ [{ r.frame with proxy := false }] } }) ∧
  (∀ (s : State) (f : Frame), s.down.output.length < 4 → s.down.own = [] →
    (∀ x ∈ s.gate.hold, x.up = true ∨ x.releasable = false) → s.down.forwarded = some f →
    exec (.outputArbiterFill .downstream) s =
      .next { s with down := { s.down with forwarded := none, output := s.down.output ++ [f] } }) ∧
  (∀ (s : State) (f : Frame), s.up.output.length < 4 → s.dom.linkUp = true → s.up.own = [] →
    (∀ x ∈ s.gate.hold, x.up = false ∨ x.releasable = false) → s.up.forwarded = some f →
    exec (.outputArbiterFill .upstream) s =
      .next { s with up := { s.up with forwarded := none, output := s.up.output ++ [f] } })

/-! ## GO -/

/-- The checks of a GO in the order of R41: BUSY outside WORKING; BAD-SELECT for a payload that is not 4 bytes, a target or
a mode that is none; NO-SEQUENCE (R35) and BAD-SEQUENCE with the index of the first step that breaks one of the five
conditions of R36, the sequence passing where none does; in CONDITIONAL mode STALE, then WAKE-PENDING. Each is answered and
changes nothing else. -/
def Obligations.GoIsRefusedByTheFirstFailingCheck : Prop :=
  ∀ (s : State) (f : Frame), s.Waiting f → f.kind = .go →
    (s.eng.platform ≠ .working → exec .go s = .next (s.answered f [1#8])) ∧
    (s.eng.platform = .working → f.payload.length ≠ 4 → exec .go s = .next (s.answered f [2#8])) ∧
    (∀ a m g1 g0 : Byte, s.eng.platform = .working → f.payload = [a, m, g1, g0] → 2 < a.toNat ∨ 1 < m.toNat →
      exec .go s = .next (s.answered f [2#8])) ∧
    (∀ (t : Sleep) (m g1 g0 : Byte), s.eng.platform = .working → f.payload = [BitVec.ofNat 8 t.code, m, g1, g0] →
      m.toNat ≤ 1 →
      ((s.dirEntry t.code).count = 0 → exec .go s = .next (s.answered f [5#8])) ∧
      ((s.dirEntry t.code).count ≠ 0 →
        (∀ i, structureFault s GroupSeen.start (s.rangeOf (s.dirEntry t.code)) = some i →
          exec .go s = .next (s.answered f [6#8, BitVec.ofNat 8 i])) ∧
        (∀ p q, s.BreaksAt (s.rangeOf (s.dirEntry t.code)) p q →
          (∀ p' q', p' < p → ¬ s.BreaksAt (s.rangeOf (s.dirEntry t.code)) p' q') →
          exec .go s = .next (s.answered f [6#8, BitVec.ofNat 8 q.index])) ∧
        ((∀ p q, ¬ s.BreaksAt (s.rangeOf (s.dirEntry t.code)) p q) →
          structureFault s GroupSeen.start (s.rangeOf (s.dirEntry t.code)) = none) ∧
        (structureFault s GroupSeen.start (s.rangeOf (s.dirEntry t.code)) = none → m = 0#8 →
          (g1 ++ g0 ≠ s.wake.generation → exec .go s = .next (s.answered f [7#8])) ∧
          (g1 ++ g0 = s.wake.generation →
            s.wake.latch &&& (s.wake.enable &&& ~~~s.mask t &&& ~~~s.wake.suppressed) ≠ 0#16 →
            exec .go s = .next (s.answered f [8#8])))))

/-- An accepted GO whose Plan begins with an ORDER in a group of its own: the platform is ENTERING the target, the Armed set
is the Wake Enable set less the target's Entry Mask less the Suppressed set, the Wake Latch is cleared in UNCONDITIONAL mode
alone, RESULT OK is queued, and the ORDER is sent with the next tag and an Outstanding Order Table entry (R42, R44, R45,
R50, R51). No recorded state, enable output or Wake Arm changes. -/
def Obligations.AcceptedGoSendsItsFirstOrder : Prop :=
  ∀ (s : State) (f : Frame) (t : Sleep) (m g1 g0 : Byte) (steps rest : List PlanStep) (q : PlanStep) (d : Domain)
    (target : OrdState) (rev : Bool) (a : Addr),
    s.Waiting f → f.kind = .go → f.payload = [BitVec.ofNat 8 t.code, m, g1, g0] → s.eng.platform = .working →
    s.RailsGood →
    (m = 0#8 ∧ g1 ++ g0 = s.wake.generation ∧
        s.wake.latch &&& (s.wake.enable &&& ~~~s.mask t &&& ~~~s.wake.suppressed) = 0#16 ∨
      m = 1#8 ∧ ∀ k : WakeLine, (s.qual.lines[k]).active = false) →
    checkSequence s t.code = .ok steps →
    (steps.filter fun x => x.step.guard.holds (s.armedFor t) none) = q :: rest →
    q.step.action = .order d target rev → q.step.join = false → (s.config d).agent = some a → s.down.own.length < 24 →
    ∃ u, exec .go s = .next u ∧
      u.eng.platform = .entering t ∧
      u.wake.armed = s.wake.enable &&& ~~~s.mask t &&& ~~~s.wake.suppressed ∧ u.wake.arm = s.wake.arm ∧
      u.wake.latch = (if m = 1#8 then 0#16 else s.wake.latch) ∧ u.wake.generation = s.wake.generation ∧
      u.up = { s.up with
        input := s.up.input.tail, own := s.up.own ++ [⟨0#6, 63#6, .result, f.tag, false, [0#8]⟩] } ∧
      u.eng.orders = s.eng.orders ++ [⟨d, a, s.eng.tag, target, some q.position⟩] ∧ u.eng.tag = s.eng.tag + 1#4 ∧
      u.down = { s.down with
        own := s.down.own ++ [⟨a, 63#6, .order, s.eng.tag, false, [BitVec.ofNat 8 target.code]⟩] } ∧
      u.eng.running = s.eng.running ++ [⟨q, s.recorded d, false, startTimer (ticks q.step.code)⟩] ∧
      u.eng.plan = some ⟨q :: rest, 1, (s.dirEntry t.code).commit⟩ ∧
      (∀ e : Domain, u.eng.rising.getLsbD e.val = (q :: rest).any fun x => decide (x.step.action.endsOn = some e)) ∧
      u.gate.hold = s.gate.hold ∧ u.gate.permit = false ∧
      u.dom = s.dom ∧ u.lines = s.lines ∧ u.eng.store = s.eng.store ∧ u.eng.directory = s.eng.directory ∧
      u.mgmt = s.mgmt ∧ u.qual = s.qual

/-! ## SET -/

/-- A SET of step records, each given by the bytes of a record, writes them at consecutive indices, is answered OK and
changes nothing else (R26, section 10.10). A start index above 127, a count of 0, or a start index plus count above 128 is
refused with BAD-SELECT and writes nothing (R26). -/
def Obligations.SetStepStoreWritesItsRecords : Prop :=
  (∀ (s : State) (f : Frame) (first : Nat) (rs : List StepRecord), s.Waiting f → f.kind = .set →
    s.eng.platform.transitional = false → 1 ≤ rs.length → rs.length ≤ 3 → first + rs.length ≤ 128 →
    f.payload = [0x01#8, BitVec.ofNat 8 first, BitVec.ofNat 8 rs.length] ++ rs.flatMap bytesOfStep →
    ∃ store : Vector StepRecord 128,
      exec .setStepStore s = .next { s.answered f [0#8] with eng := { s.eng with store := store } } ∧
      ∀ i : Nat, i < 128 → store[i]? = if first ≤ i ∧ i < first + rs.length then rs[i - first]? else s.eng.store[i]?) ∧
  (∀ (s : State) (f : Frame) (first count : Byte) (data : List Byte), s.Waiting f → f.kind = .set →
    s.eng.platform.transitional = false → f.payload = [0x01#8, first, count] ++ data → data.length = 8 * count.toNat →
    127 < first.toNat ∨ count = 0#8 ∨ 128 < first.toNat + count.toNat →
    exec .setStepStore s = .next (s.answered f [2#8]))

/-- A step record is refused with BAD-ENTRY, writing nothing, in exactly the eight cases of R29; a guard, a join flag, a
time code and a DELAY's target do not count. The state-on-completion and guard bytes code values of their fields. -/
def Obligations.StepRecordsAreRefusedInEightCases : Prop :=
  ∀ (s : State) (f : Frame) (first : Nat) (b0 dom target level done code form source : Byte), s.Waiting f →
    f.kind = .set → s.eng.platform.transitional = false → first < 128 →
    f.payload = [0x01#8, BitVec.ofNat 8 first, 1#8, b0, dom, target, level, done, code, form, source] →
    (done.toNat < 4 ∨ done = 0xFF#8) → form.toNat < 5 → (form = 0#8 ∨ source.toNat < 16) →
    (((2 ≤ b0.toNat / 64 ∧ b0.getLsbD 4 = true) ∨
      ((b0.toNat / 64 = 0 ∨ b0.toNat / 64 = 2) ∧ dom = 0xFF#8) ∨
      (b0.toNat / 64 = 0 ∧ done ≠ 0xFF#8) ∨
      (dom = 0xFF#8 ∧ done ≠ 0xFF#8) ∨
      (b0.toNat / 64 = 0 ∧ 3 < target.toNat) ∨
      (b0.toNat / 64 = 1 ∧ (15 < target.toNat ∨ 1 < level.toNat)) ∨
      (b0.toNat / 64 = 2 ∧ 1 < target.toNat) ∨
      (dom ≠ 0xFF#8 ∧ 11 < dom.toNat)) →
      exec .setStepStore s = .next (s.answered f [3#8])) ∧
    (¬ ((2 ≤ b0.toNat / 64 ∧ b0.getLsbD 4 = true) ∨
      ((b0.toNat / 64 = 0 ∨ b0.toNat / 64 = 2) ∧ dom = 0xFF#8) ∨
      (b0.toNat / 64 = 0 ∧ done ≠ 0xFF#8) ∨
      (dom = 0xFF#8 ∧ done ≠ 0xFF#8) ∨
      (b0.toNat / 64 = 0 ∧ 3 < target.toNat) ∨
      (b0.toNat / 64 = 1 ∧ (15 < target.toNat ∨ 1 < level.toNat)) ∨
      (b0.toNat / 64 = 2 ∧ 1 < target.toNat) ∨
      (dom ≠ 0xFF#8 ∧ 11 < dom.toNat)) →
      ∃ store, exec .setStepStore s = .next { s.answered f [0#8] with eng := { s.eng with store := store } })

/-- SETs of directory entries that pass R23 and of Agent Map entries write them at consecutive indices; a SET of the
Retained Resume Area writes its bytes from the start address modulo 64, wrapping from 63 to 0 (R23, R18, R172). Each is
answered OK and changes nothing else. An index or a count outside the object's range is refused with BAD-SELECT, and then an
entry that R23 or R18 does not allow refuses the whole SET with BAD-ENTRY. -/
def Obligations.SetDirectoryAgentMapAndRetainedAreaWrite : Prop :=
  (∀ (s : State) (f : Frame) (first : Nat) (es : List DirEntry), s.Waiting f → f.kind = .set →
    s.eng.platform.transitional = false → 1 ≤ es.length → first + es.length ≤ 7 →
    (∀ e ∈ es, e.first ≤ 127 ∧ e.count ≤ 32 ∧ e.first + e.count ≤ 128 ∧ e.commit ≤ e.count) →
    f.payload = [0x02#8, BitVec.ofNat 8 first, BitVec.ofNat 8 es.length] ++ es.flatMap bytesOfDir →
    ∃ table : Vector DirEntry 7,
      exec .setSequenceDirectory s = .next { s.answered f [0#8] with eng := { s.eng with directory := table } } ∧
      ∀ i : Nat, i < 7 →
        table[i]? = if first ≤ i ∧ i < first + es.length then es[i - first]? else s.eng.directory[i]?) ∧
  (∀ (s : State) (f : Frame) (first : Nat) (ds : List (Option Domain)), s.Waiting f → f.kind = .set →
    s.eng.platform.transitional = false → 1 ≤ ds.length → ds.length ≤ 29 → 1 ≤ first → first + ds.length ≤ 63 →
    f.payload = [0x05#8, BitVec.ofNat 8 first, BitVec.ofNat 8 ds.length] ++ ds.map byteOfDomain →
    ∃ table : Vector (Option Domain) 62,
      exec .setAgentMap s = .next { s.answered f [0#8] with dom := { s.dom with agentMap := table } } ∧
      ∀ a : Nat, 1 ≤ a → a ≤ 62 →
        table[a - 1]? = if first ≤ a ∧ a < first + ds.length then ds[a - first]? else s.dom.agentMap[a - 1]?) ∧
  (∀ (s : State) (f : Frame) (start : Byte) (bs : List Byte), s.Waiting f → f.kind = .set →
    s.eng.platform.transitional = false → 1 ≤ bs.length → bs.length ≤ 29 → Memory.wf s.mgmt.retained = true →
    f.payload = [0x14#8, start, BitVec.ofNat 8 bs.length] ++ bs →
    ∃ area : Memory,
      exec .setRetainedResumeArea s = .next { s.answered f [0#8] with mgmt := { s.mgmt with retained := area } } ∧
      Memory.wf area = true ∧
      (∀ (i : Nat) (h : i < bs.length), Memory.read area ((start.toNat + i) % 64) = bs[i]) ∧
      (∀ a : Nat, (∀ i, i < bs.length → a ≠ (start.toNat + i) % 64) → Memory.read area a = Memory.read s.mgmt.retained a)) ∧
  (∀ (s : State) (f : Frame) (first count : Byte) (data : List Byte), s.Waiting f → f.kind = .set →
    s.eng.platform.transitional = false →
    (f.payload = [0x02#8, first, count] ++ data → data.length = 3 * count.toNat →
      6 < first.toNat ∨ count = 0#8 ∨ 7 < first.toNat + count.toNat →
      exec .setSequenceDirectory s = .next (s.answered f [2#8])) ∧
    (f.payload = [0x05#8, first, count] ++ data → data.length = count.toNat →
      first = 0#8 ∨ 62 < first.toNat ∨ count = 0#8 ∨ 63 < first.toNat + count.toNat →
      exec .setAgentMap s = .next (s.answered f [2#8])) ∧
    (f.payload = [0x05#8, first, count] ++ data → data.length = count.toNat → 1 ≤ count.toNat → count.toNat ≤ 29 →
      1 ≤ first.toNat → first.toNat + count.toNat ≤ 63 → (∃ b ∈ data, 11 < b.toNat ∧ b ≠ 0xFF#8) →
      exec .setAgentMap s = .next (s.answered f [3#8])) ∧
    (f.payload = [0x14#8, first, count] ++ data → data.length = count.toNat → count = 0#8 ∨ 29 < count.toNat →
      exec .setRetainedResumeArea s = .next (s.answered f [2#8]))) ∧
  (∀ (s : State) (f : Frame) (first : Nat) (es : List (Byte × Byte × Byte)), s.Waiting f → f.kind = .set →
    s.eng.platform.transitional = false → 1 ≤ es.length → first + es.length ≤ 7 →
    f.payload = [0x02#8, BitVec.ofNat 8 first, BitVec.ofNat 8 es.length] ++ es.flatMap (fun e => [e.1, e.2.1, e.2.2]) →
    (∃ e ∈ es, 127 < e.1.toNat ∨ 32 < e.2.1.toNat ∨ 128 < e.1.toNat + e.2.1.toNat ∨ e.2.1.toNat < e.2.2.toNat) →
    exec .setSequenceDirectory s = .next (s.answered f [3#8]))

/-- A SET of domain configuration records writes them whole. The controller flag goes to the highest-numbered record that
carries controller 1, or stays with its holder, whose record is then not written with controller 0; while the link is UP
it moves only to a domain recorded ON (R13, R14). An index or a count outside 0 to 12, or above seven records, is refused
with BAD-SELECT; a record that R13 does not allow, two domains of one agent, a flag that none would hold or that would move
to a domain not ON refuse the whole SET with BAD-ENTRY. -/
def Obligations.SetDomainConfigurationWritesRecords : Prop :=
  (∀ (s : State) (f : Frame) (first : Nat) (ws : List DomainWrite) (holder : Domain), s.Waiting f → f.kind = .set →
    s.eng.platform.transitional = false → 1 ≤ ws.length → ws.length ≤ 7 → first + ws.length ≤ 12 →
    (∀ w ∈ ws, ∀ a, w.config.agent = some a → a ≠ 0#6 ∧ a ≠ 63#6) →
    f.payload = [0x03#8, BitVec.ofNat 8 first, BitVec.ofNat 8 ws.length] ++
      ws.flatMap (fun w => bytesOfDomain w.config w.controller) →
    ((∃ w, ws[holder.val - first]? = some w ∧ first ≤ holder.val ∧ w.controller = true ∧
        ∀ j w', holder.val - first < j → ws[j]? = some w' → w'.controller = false) ∨
      (holder = s.dom.controller ∧ (∀ w ∈ ws, w.controller = false) ∧
        ¬ (first ≤ holder.val ∧ holder.val < first + ws.length))) →
    (holder = s.dom.controller ∨ s.recorded holder = .on) →
    ∀ config : Vector DomainConfig 12,
      (∀ i : Fin 12, config[i] = if first ≤ i.val ∧ i.val < first + ws.length
        then ((ws[i.val - first]?).map DomainWrite.config).getD DomainConfig.empty else s.dom.config[i]) →
      (∀ i j : Fin 12, i ≠ j → config[i].agent = none ∨ config[i].agent ≠ config[j].agent) →
      (∀ (i : Fin 12) (l : PgLine), config[i].pgLine = some l → s.pgLevel l = true) →
      exec .setDomainConfiguration s =
        .next { s.answered f [0#8] with dom := { s.dom with config := config, controller := holder } }) ∧
  (∀ (s : State) (f : Frame) (first count : Byte) (data : List Byte), s.Waiting f → f.kind = .set →
    s.eng.platform.transitional = false → f.payload = [0x03#8, first, count] ++ data → data.length = 4 * count.toNat →
    11 < first.toNat ∨ count = 0#8 ∨ 7 < count.toNat ∨ 12 < first.toNat + count.toNat →
    exec .setDomainConfiguration s = .next (s.answered f [2#8])) ∧
  (∀ (s : State) (f : Frame) (first : Nat) (rs : List (Byte × Byte × Byte × Byte)), s.Waiting f → f.kind = .set →
    s.eng.platform.transitional = false → 1 ≤ rs.length → rs.length ≤ 7 → first + rs.length ≤ 12 →
    f.payload = [0x03#8, BitVec.ofNat 8 first, BitVec.ofNat 8 rs.length] ++
      rs.flatMap (fun r => [r.1, r.2.1, r.2.2.1, r.2.2.2]) →
    (∃ r ∈ rs, r.1 = 0#8 ∨ (62 < r.1.toNat ∧ r.1 ≠ 0xFF#8) ∨ (15 < r.2.1.toNat ∧ r.2.1 ≠ 0xFF#8) ∨
      r.2.2.1.getLsbD 3 = true) →
    exec .setDomainConfiguration s = .next (s.answered f [3#8])) ∧
  (∀ (s : State) (f : Frame) (first : Nat) (ws : List DomainWrite), s.Waiting f → f.kind = .set →
    s.eng.platform.transitional = false → 1 ≤ ws.length → ws.length ≤ 7 → first + ws.length ≤ 12 →
    (∀ w ∈ ws, ∀ a, w.config.agent = some a → a ≠ 0#6 ∧ a ≠ 63#6) →
    f.payload = [0x03#8, BitVec.ofNat 8 first, BitVec.ofNat 8 ws.length] ++
      ws.flatMap (fun w => bytesOfDomain w.config w.controller) →
    ((first ≤ s.dom.controller.val ∧ s.dom.controller.val < first + ws.length ∧ ∀ w ∈ ws, w.controller = false) ∨
      (∃ (holder : Domain) (w : DomainWrite), first ≤ holder.val ∧ ws[holder.val - first]? = some w ∧
        w.controller = true ∧ (∀ j w', holder.val - first < j → ws[j]? = some w' → w'.controller = false) ∧
        holder ≠ s.dom.controller ∧ s.recorded holder ≠ .on) ∨
      (∃ (i j : Nat) (w w' : DomainWrite) (a : Addr), i < j ∧ ws[i]? = some w ∧ ws[j]? = some w' ∧
        w.config.agent = some a ∧ w'.config.agent = some a) ∨
      (∃ (d : Domain) (w : DomainWrite) (a : Addr), (d.val < first ∨ first + ws.length ≤ d.val) ∧ w ∈ ws ∧
        w.config.agent = some a ∧ (s.config d).agent = some a)) →
    exec .setDomainConfiguration s = .next (s.answered f [3#8]))

/-- A SET of one match entry writes its fields, sets its run count to 0, keeps every other entry, and is answered OK
(R126). A WAKE or WAKE+KEEP action names a source from 10 to 15. An index or a count outside the table is refused with
BAD-SELECT, and an entry that R126 does not allow with BAD-ENTRY. -/
def Obligations.SetMatchEntryWritesFieldsAndClearsRun : Prop :=
  (∀ (s : State) (f : Frame) (i : Fin 24) (e : MatchEntry), s.Waiting f → f.kind = .set →
    s.eng.platform.transitional = false →
    (∀ a, e.agent = some a → a ≠ 0#6 ∧ a ≠ 63#6) → (∀ k, e.kind = some k → k = .note ∨ k = .ask ∨ k = .alert) →
    e.lsb ≤ e.msb → 1 ≤ e.qualifier → e.qualifier ≤ 8 →
    (e.action = .wake ∨ e.action = .wakeKeep → 10 ≤ e.source.toNat ∧ e.source.toNat ≤ 15) →
    f.payload = [0x06#8, BitVec.ofNat 8 i.val, 1#8] ++ bytesOfMatch e →
    exec .setWakeMatchTable s =
      .next { s.answered f [0#8] with matcher := { table := s.matcher.table.set i { e with run := 0 } } }) ∧
  (∀ (s : State) (f : Frame) (first count : Byte) (data : List Byte), s.Waiting f → f.kind = .set →
    s.eng.platform.transitional = false → f.payload = [0x06#8, first, count] ++ data → data.length = 15 * count.toNat →
    23 < first.toNat ∨ count = 0#8 ∨ 24 < first.toNat + count.toNat →
    exec .setWakeMatchTable s = .next (s.answered f [2#8])) ∧
  (∀ (s : State) (f : Frame) (first b0 agent kind q msb lsb act : Byte) (bounds : List Byte), s.Waiting f → f.kind = .set →
    s.eng.platform.transitional = false → first.toNat ≤ 23 → bounds.length = 8 →
    f.payload = [0x06#8, first, 1#8, b0, agent, kind, q, msb, lsb] ++ bounds ++ [act] →
    (agent = 0#8 ∨ (62 < agent.toNat ∧ agent ≠ 0xFF#8) ∨ kind ∉ [0#8, 1#8, 5#8, 0xFF#8] ∨ 31 < msb.toNat ∨
      msb.toNat < lsb.toNat ∨ (0x80 ≤ act.toNat ∧ ((act &&& 0x3F#8).toNat < 10 ∨ 15 < (act &&& 0x3F#8).toNat))) →
    exec .setWakeMatchTable s = .next (s.answered f [3#8]))

/-- A SET of the wake settings writes the four sets with source 0 held, holds a threshold of 0 at 1, restarts the storm
counts and the window only where the threshold held or the window code changes, and computes the Armed set at once in a
sleep state (R96, R97, R98, R106). -/
def Obligations.SetWakeSettingsHoldsSourceZero : Prop :=
  ∀ (s : State) (f : Frame) (e a b c : SourceSet) (threshold window : Byte), s.Waiting f → f.kind = .set →
    s.eng.platform.transitional = false →
    f.payload = [0x07#8] ++ bytes16 e ++ bytes16 a ++ bytes16 b ++ bytes16 c ++ [threshold, window] →
    ∃ t, exec .setWakeSettings s = .next t ∧
      t = { s.answered f [0#8] with wake := t.wake } ∧
      t.wake.enable = e ||| 1#16 ∧ t.wake.maskStandby = a &&& 0xFFFE#16 ∧ t.wake.maskHibernate = b &&& 0xFFFE#16 ∧
      t.wake.maskSoftoff = c &&& 0xFFFE#16 ∧
      t.wake.threshold = (if threshold = 0#8 then 1 else threshold.toNat) ∧ t.wake.window = window ∧
      (t.wake.threshold = s.wake.threshold ∧ window = s.wake.window →
        t.wake.stormCount = s.wake.stormCount ∧ t.wake.windowTimer = s.wake.windowTimer) ∧
      (t.wake.threshold ≠ s.wake.threshold ∨ window ≠ s.wake.window →
        (∀ src : Source, t.wake.stormCount[src] =
          if s.wake.suppressed.getLsbD src.val then s.wake.stormCount[src] else 0) ∧
        t.wake.windowTimer = if ticks window = 0 then none else some (ticks window)) ∧
      (s.eng.platform = .working → t.wake.armed = s.wake.armed) ∧
      (∀ x, s.eng.platform = .rest x → t.wake.armed = t.wake.enable &&& ~~~t.mask x &&& ~~~s.wake.suppressed) ∧
      t.wake.latch = s.wake.latch ∧ t.wake.generation = s.wake.generation ∧ t.wake.suppressed = s.wake.suppressed ∧
      t.wake.arm = s.wake.arm ∧ t.wake.context = s.wake.context

/-- A SET of Line Qualifiers none of whose lines is left at the active level of a level mode writes modes and filter codes,
ends the qualification of a line whose filter code changes, keeps the filtered levels and latches nothing (R112, R115). An
index or a count outside the eight lines is refused with BAD-SELECT and writes nothing (R166); that a count of 0 is refused
so too is log entry 37. -/
def Obligations.SetLineQualifiersWritesSettings : Prop :=
  (∀ (s : State) (f : Frame) (first : Nat) (xs : List (LineMode × TimeCode)), s.Waiting f → f.kind = .set →
    s.eng.platform.transitional = false → s.RailsGood → 1 ≤ xs.length → first + xs.length ≤ 8 →
    f.payload = [0x0B#8, BitVec.ofNat 8 first, BitVec.ofNat 8 xs.length] ++
      xs.flatMap (fun x => [BitVec.ofNat 8 x.1.code, x.2]) →
    (∀ (k : WakeLine) (x : LineMode × TimeCode), first ≤ k.val → xs[k.val - first]? = some x →
      x.1 ≠ (if s.qual.lines[k].level then .high else .low)) →
    ∃ lines : Vector LineQualifier 8,
      exec .setLineQualifiers s = .next { s.answered f [0#8] with qual := { s.qual with lines := lines } } ∧
      ∀ k : WakeLine, lines[k].level = s.qual.lines[k].level ∧
        (∀ x, first ≤ k.val → xs[k.val - first]? = some x →
          lines[k].mode = x.1 ∧ lines[k].filter = x.2 ∧
          (x.2 ≠ s.qual.lines[k].filter → lines[k].qualifying = none)) ∧
        (k.val < first ∨ first + xs.length ≤ k.val → lines[k] = s.qual.lines[k])) ∧
  (∀ (s : State) (f : Frame) (first count : Byte) (data : List Byte), s.Waiting f → f.kind = .set →
    s.eng.platform.transitional = false → f.payload = [0x0B#8, first, count] ++ data → data.length = 2 * count.toNat →
    7 < first.toNat ∨ count = 0#8 ∨ 8 < first.toNat + count.toNat →
    exec .setLineQualifiers s = .next (s.answered f [2#8]))

/-- SETs of the button and power settings, of the Wake Timer, clamped to 16,777,215, and of the safe levels write what
they carry, are answered OK and change nothing else (R117, R121, R83). -/
def Obligations.SetButtonTimerAndSafeLevelsWrite : Prop :=
  ∀ (s : State) (f : Frame), s.Waiting f → f.kind = .set → s.eng.platform.transitional = false →
    (∀ p o : TimeCode, f.payload = [0x0C#8, p, o, 0#8] →
      exec .setButtonSettings s = .next { s.answered f [0#8] with qual := { s.qual with
        button := { s.qual.button with pressMinimum := p, override := o }, afterLoss := .stayOff } }) ∧
    (∀ p o : TimeCode, f.payload = [0x0C#8, p, o, 1#8] →
      exec .setButtonSettings s = .next { s.answered f [0#8] with qual := { s.qual with
        button := { s.qual.button with pressMinimum := p, override := o }, afterLoss := .powerOn } }) ∧
    (∀ x : BitVec 32, f.payload = [0x0D#8] ++ bytes32 x →
      exec .setWakeTimer s = .next { s.answered f [0#8] with qual := { s.qual with
        wakeTimer := if 16777215 < x.toNat then 16777215 else x.toNat } }) ∧
    (∀ x : Levels, f.payload = [0x0E#8] ++ bytes16 x →
      exec .setSafeLevels s = .next { s.answered f [0#8] with lines := { s.lines with safe := x } })

/-- A REINIT is taken in WORKING: its tag is kept for its RESULT and a loading starts with the reading of the image; in
every other state it is answered BUSY and changes nothing (R171, R167). -/
def Obligations.ReinitIsTakenInWorkingAlone : Prop :=
  ∀ (s : State) (f : Frame), s.Waiting f → f.kind = .set → f.payload = [0x16#8] →
    (s.eng.platform = .working → exec .reinit s = .next { s with
      up := { s.up with input := s.up.input.tail },
      mgmt := { s.mgmt with serving := some f.tag },
      ldr := { s.ldr with loading := some ⟨true, .header, false, none⟩ } }) ∧
    (s.eng.platform ≠ .working → exec .reinit s = .next (s.answered f [1#8]))

/-- Every SET is refused with BUSY in every transitional state, whatever else it carries, and changes nothing (R2, R166). -/
def Obligations.EverySetIsBusyInTransitionalStates : Prop :=
  ∀ (s : State) (f : Frame) (c : Instr) (selector : Byte) (rest : List Byte), s.Waiting f → f.kind = .set →
    f.payload = selector :: rest → s.eng.platform.transitional = true →
    (c, selector) ∈ [(Instr.setStepStore, 0x01#8), (.setSequenceDirectory, 0x02#8), (.setDomainConfiguration, 0x03#8),
      (.setAgentMap, 0x05#8), (.setWakeMatchTable, 0x06#8), (.setWakeSettings, 0x07#8), (.setLineQualifiers, 0x0B#8),
      (.setButtonSettings, 0x0C#8), (.setWakeTimer, 0x0D#8), (.setSafeLevels, 0x0E#8), (.setRetainedResumeArea, 0x14#8),
      (.reinit, 0x16#8)] →
    exec c s = .next (s.answered f [1#8])

/-! ## GET -/

/-- The GETs of objects with items answer OK and the items from the first index on, in the layouts of section 10.10, and
change nothing else. The Hold Queue returns its two header bytes and only the records held; the Retained Resume Area is
read from the start address modulo 64 (R166, R167, R172). The Hold Queue clause rests on the model's own choices too: a
record's first byte is a free function (log entry 5), the permit is coded 1 or 0 (entry 8), any first index is taken with
a count from 1 to 5 (entry 16). -/
def Obligations.GetsOfItemsReturnThem : Prop :=
  ∀ (s : State) (f : Frame) (selector : Byte) (first count : Nat), s.Waiting f → f.kind = .get → 1 ≤ count →
    first < 256 → count < 256 → f.payload = [selector, BitVec.ofNat 8 first, BitVec.ofNat 8 count] →
    (selector = 0x01#8 → count ≤ 3 → first + count ≤ 128 → exec .getStepStore s = .next (s.answered f
      (0#8 :: ((List.range count).filterMap fun i => s.eng.store[first + i]?).flatMap bytesOfStep))) ∧
    (selector = 0x02#8 → first + count ≤ 7 → exec .getSequenceDirectory s = .next (s.answered f
      (0#8 :: ((List.range count).filterMap fun i => s.eng.directory[first + i]?).flatMap bytesOfDir))) ∧
    (selector = 0x03#8 → count ≤ 7 → first + count ≤ 12 → exec .getDomainConfiguration s = .next (s.answered f
      (0#8 :: (List.range count).flatMap fun i => ((s.dom.config[first + i]?).map fun c =>
        bytesOfDomain c (decide (first + i = s.dom.controller.val))).getD []))) ∧
    (selector = 0x04#8 → first + count ≤ 12 → exec .getDomainStatus s = .next (s.answered f
      (0#8 :: ((List.range count).filterMap fun i => s.dom.status[first + i]?).flatMap bytesOfStatus))) ∧
    (selector = 0x05#8 → 1 ≤ first → count ≤ 31 → first + count ≤ 63 → exec .getAgentMap s = .next (s.answered f
      (0#8 :: ((List.range count).filterMap fun i => s.dom.agentMap[first - 1 + i]?).map byteOfDomain))) ∧
    (selector = 0x06#8 → count ≤ 2 → first + count ≤ 24 → exec .getWakeMatchTable s = .next (s.answered f
      (0#8 :: ((List.range count).filterMap fun i => s.matcher.table[first + i]?).flatMap bytesOfMatch))) ∧
    (selector = 0x0B#8 → first + count ≤ 8 → exec .getLineQualifiers s = .next (s.answered f
      (0#8 :: ((List.range count).filterMap fun i => s.qual.lines[first + i]?).flatMap bytesOfLine))) ∧
    (selector = 0x11#8 → count ≤ 5 → exec .getHoldQueue s = .next (s.answered f
      ([0#8, BitVec.ofNat 8 s.gate.hold.length, if s.gate.permit then 1#8 else 0#8] ++
        ((s.gate.hold.drop first).take count).flatMap bytesOfHold))) ∧
    (selector = 0x14#8 → count ≤ 31 → exec .getRetainedResumeArea s = .next (s.answered f
      (0#8 :: (List.range count).map fun i => Memory.read s.mgmt.retained ((first + i) % 64))))

/-- The GETs of objects without items answer OK and the fields of section 10.5.2 and 10.10, in their order, and change
nothing else. While the Wake Context or the Last Report is absent its GET answers "present" 0 and bytes that the manual does
not state, whatever they are, and advances the model's draw counter (log entry 4). That a flag in a byte of its own, Wake Arm
and "present" among them, is 1 or 0 is log entry 8; that the from-state and a platform state's parameter are coded 1, 2, 3
by the list of platform states is log entry 22. -/
def Obligations.GetsOfWholeObjectsReturnThem : Prop :=
  ∀ (s : State) (f : Frame), s.Waiting f → f.kind = .get →
    (f.payload = [0x07#8] → exec .getWakeSettings s = .next (s.answered f ([0#8] ++ bytes16 s.wake.enable ++
      bytes16 s.wake.maskStandby ++ bytes16 s.wake.maskHibernate ++ bytes16 s.wake.maskSoftoff ++
      [BitVec.ofNat 8 s.wake.threshold, s.wake.window]))) ∧
    (f.payload = [0x08#8] → exec .getWakeStatus s = .next (s.answered f ([0#8] ++ bytes16 s.wake.latch ++
      bytes16 s.wake.generation ++ bytes16 s.wake.suppressed ++ bytes16 s.wake.armed ++
      [if s.wake.arm then 1#8 else 0#8]))) ∧
    (f.payload = [0x09#8] → exec .getStormCounts s = .next (s.answered f
      (0#8 :: (List.range 15).map fun i => BitVec.ofNat 8 ((s.wake.stormCount[i + 1]?).getD 0)))) ∧
    (∀ c, f.payload = [0x0A#8] → s.wake.context = some c → exec .getWakeContext s = .next (s.answered f
      ([0#8, 1#8, BitVec.ofNat 8 c.fromState.stateCode, c.reason.code] ++ bytes16 c.latch ++ bytes16 c.armed ++
        bytes24 c.sleepDuration))) ∧
    (f.payload = [0x0C#8] → exec .getButtonSettings s = .next (s.answered f
      [0#8, s.qual.button.pressMinimum, s.qual.button.override, s.qual.afterLoss.code,
        if s.qual.button.state.level then 1#8 else 0#8,
        BitVec.ofNat 8 ((if s.qual.button.latched then 2 else 0) + (if s.qual.button.overridden then 1 else 0))])) ∧
    (f.payload = [0x0D#8] → exec .getWakeTimer s = .next (s.answered f
      ([0#8] ++ bytes24 s.qual.wakeTimer ++ bytes24 s.qual.sleepCount ++
        [if s.qual.sleepCounting then 1#8 else 0#8]))) ∧
    (f.payload = [0x0E#8] → exec .getSafeLevels s = .next (s.answered f ([0#8] ++ bytes16 s.lines.safe))) ∧
    (f.payload = [0x0F#8] → exec .getEngineState s = .next (s.answered f
      ([0#8, BitVec.ofNat 8 s.eng.platform.code, optByte (s.eng.platform.parameter.map Sleep.stateCode),
        optByte s.eng.platform.shownSequence, BitVec.ofNat 8 s.eng.undoStack.length,
        optByte (s.eng.undo.map fun u => u.record.index), BitVec.ofNat 8 s.eng.orders.length,
        optByte (s.eng.abortPending.map Fin.val)] ++ bytes12 s.eng.rising ++ bytes16 s.lines.levels))) ∧
    (∀ r, f.payload = [0x10#8] → s.eng.lastReport = some r → exec .getLastReport s = .next (s.answered f
      ([0#8, 1#8, optByte r.sequence, BitVec.ofNat 8 r.outcome.code, BitVec.ofNat 8 r.cause.code, optByte r.failing,
        optByte (r.source.map Fin.val)] ++ bytes16 (r.unknown.setWidth 16)))) ∧
    (f.payload = [0x12#8] → ∃ levels : Levels, (∀ l : PgLine, levels.getLsbD l.val = s.pgLevel l) ∧
      exec .getPowerGoodLevels s = .next (s.answered f ([0#8] ++ bytes16 levels))) ∧
    (f.payload = [0x13#8] → exec .getCounters s = .next (s.answered f
      [0#8, BitVec.ofNat 8 s.mgmt.counters.frameErrorsUp, BitVec.ofNat 8 s.mgmt.counters.frameErrorsDown,
        BitVec.ofNat 8 s.mgmt.counters.discarded, BitVec.ofNat 8 s.mgmt.counters.stray,
        BitVec.ofNat 8 s.mgmt.counters.late, BitVec.ofNat 8 s.mgmt.counters.holdOverflow])) ∧
    (f.payload = [0x15#8] → exec .getLoaderStatus s = .next (s.answered f [0#8, s.ldr.status.code])) ∧
    (f.payload = [0x0A#8] → s.wake.context = none → ∃ bytes : List Byte, bytes.length = 9 ∧
      exec .getWakeContext s = .next ((s.answered f ([0#8, 0#8] ++ bytes)).withDraws (s.draws + 9))) ∧
    (f.payload = [0x10#8] → s.eng.lastReport = none → ∃ bytes : List Byte, bytes.length = 7 ∧
      exec .getLastReport s = .next ((s.answered f ([0#8, 0#8] ++ bytes)).withDraws (s.draws + 7)))

/-! ## CLEAR -/

/-- A CLEAR of the Wake Latch removes the named sources, and one of the Suppressed set restores the named sources with
their counts at 0 and the Armed set computed again in ENTERING and in a sleep state if one left it. Each is answered OK
(R94, R109, R98, R168). No line of a level mode is active here. -/
def Obligations.ClearsOfSourcesRemoveThem : Prop :=
  ∀ (s : State) (f : Frame) (x : SourceSet), s.Waiting f → f.kind = .clear →
    (f.payload = [0x08#8] ++ bytes16 x → s.RailsGood → (∀ k : WakeLine, (s.qual.lines[k]).active = false) →
      exec .clearWakeLatch s =
        .next { s.answered f [0#8] with wake := { s.wake with latch := s.wake.latch &&& ~~~x } }) ∧
    (f.payload = [0x20#8] ++ bytes16 x → ∃ t, exec .clearSuppressed s = .next t ∧
      t = { s.answered f [0#8] with wake := { s.wake with
        suppressed := s.wake.suppressed &&& ~~~x, stormCount := t.wake.stormCount, armed := t.wake.armed } } ∧
      (∀ src : Source, t.wake.stormCount[src] =
        if x.getLsbD src.val && s.wake.suppressed.getLsbD src.val then 0 else s.wake.stormCount[src]) ∧
      t.wake.armed = (if s.wake.suppressed &&& x = 0#16 then s.wake.armed
        else match s.eng.platform with
          | .rest y | .entering y => s.wake.enable &&& ~~~s.mask y &&& ~~~(s.wake.suppressed &&& ~~~x)
          | _ => s.wake.armed))

/-- A CLEAR of rail faults handles each named domain by the table of R157, keeps recorded states and last fault causes, and
leaves the domains that are not named alone; with every rail good, nothing latches again. A named domain with blanking
duration 0 that is monitored with its line still DEASSERTED latches its fault again at the CLEAR: PG-LOST is written and,
here under REPORT, EVENT RAIL-FAULT follows the RESULT (R157, R153, R154). -/
def Obligations.ClearOfRailFaultsFollowsTheTable : Prop :=
  ∀ (s : State) (f : Frame) (x : BitVec 16) (table : Domain → DomainStatus), s.Waiting f → f.kind = .clear →
    f.payload = [0x21#8] ++ bytes16 x →
    (∀ d : Domain, table d =
      if x.getLsbD d.val = false ∨ s.dom.status[d].fault = .noFault then s.dom.status[d]
      else if ticks (s.config d).blanking = 0 then { s.dom.status[d] with fault := .noFault, blanking := none }
      else { s.dom.status[d] with fault := .qualifying, blanking := some (ticks (s.config d).blanking) }) →
    (s.RailsGood → ∃ status : Vector DomainStatus 12,
      exec .clearRailFaults s = .next { s.answered f [0#8] with dom := { s.dom with status := status } } ∧
      ∀ d : Domain, status[d] = table d) ∧
    (∀ (d : Domain) (l : PgLine), x.getLsbD d.val = true → s.dom.status[d].fault ≠ .noFault →
      ticks (s.config d).blanking = 0 → (s.config d).policy = .report → (s.config d).monitors (s.recorded d) = true →
      (s.config d).pgLine = some l → s.pgLevel l = false → s.eng.running = [] → s.eng.undo = none →
      s.up.own.length < 23 → (∀ (e : Domain) (k : PgLine), e ≠ d → (s.config e).pgLine = some k → s.pgLevel k = true) →
      ∃ status : Vector DomainStatus 12,
        exec .clearRailFaults s = .next { (s.answered f [0#8]).upQueued
            ⟨0#6, 63#6, .event, 0#4, false, [1#8, BitVec.ofNat 8 d.val]⟩ with dom := { s.dom with status := status } } ∧
        status[d] = ⟨s.recorded d, .latched, some .pgLost, none⟩ ∧ ∀ e : Domain, e ≠ d → status[e] = table e)

/-- A CLEAR of counters sets the named ones to 0, bits 0 to 5 naming them in the order of R168. A SET, GET or CLEAR that
names no selector its kind takes is refused by the checks of R166 in order: a SET with BUSY in a transitional state;
BAD-KIND where the payload is empty or its length is not what the selector, with its index and count, implies; else
BAD-SELECT (R168, R170). What length a SET of a GET-only object implies, and that a selector of no row of R167 implies
none, is log entry 15. -/
def Obligations.ClearOfCountersAndBadSelectors : Prop :=
  ∀ (s : State) (f : Frame), s.Waiting f →
    (∀ x : BitVec 16, f.kind = .clear → f.payload = [0x13#8] ++ bytes16 x →
      exec .clearCounters s = .next { s.answered f [0#8] with mgmt := { s.mgmt with counters :=
        ⟨if x.getLsbD 0 then 0 else s.mgmt.counters.frameErrorsUp, if x.getLsbD 1 then 0 else s.mgmt.counters.frameErrorsDown,
         if x.getLsbD 2 then 0 else s.mgmt.counters.discarded, if x.getLsbD 3 then 0 else s.mgmt.counters.stray,
         if x.getLsbD 4 then 0 else s.mgmt.counters.late,
         if x.getLsbD 5 then 0 else s.mgmt.counters.holdOverflow⟩ } }) ∧
    (∀ result : Byte,
      ((f.kind = .set ∧ s.eng.platform.transitional = true ∧ result = 1#8 ∧
          (f.payload = [] ∨ ∃ (selector : Byte) (rest : List Byte), f.payload = selector :: rest ∧
            selector ∉ [0x01#8, 0x02#8, 0x03#8, 0x05#8, 0x06#8, 0x07#8, 0x0B#8, 0x0C#8, 0x0D#8, 0x0E#8, 0x14#8, 0x16#8])) ∨
        (f.kind ∈ [Kind.set, .get, .clear] ∧ (f.kind = .set → s.eng.platform.transitional = false) ∧
          ((f.payload = [] ∧ result = 4#8) ∨
          ∃ (selector : Byte) (rest : List Byte), f.payload = selector :: rest ∧
            ((f.kind = .get ∧ (selector = 0#8 ∨ 0x16#8 < selector) ∧ result = 2#8) ∨
            (f.kind = .get ∧ selector = 0x16#8 ∧ result = (if rest = [] then 2#8 else 4#8)) ∨
            (f.kind = .clear ∧ selector ∉ [0x08#8, 0x13#8, 0x20#8, 0x21#8] ∧
              result = (if rest.length = 2 then 2#8 else 4#8)) ∨
            (f.kind = .set ∧ (selector = 0#8 ∨ 0x16#8 < selector) ∧ result = 2#8) ∨
            (f.kind = .set ∧ (∃ size : Nat, (selector, size) ∈ [(0x08#8, 9), (0x09#8, 15), (0x0A#8, 10), (0x0F#8, 11),
                (0x10#8, 8), (0x12#8, 2), (0x13#8, 6), (0x15#8, 1)] ∧
              result = (if rest.length = size then 2#8 else 4#8))) ∨
            (f.kind = .set ∧ selector ∈ [0x04#8, 0x11#8] ∧ rest.length < 2 ∧ result = 4#8) ∨
            (∃ (size : Nat) (first count : Byte) (data : List Byte), f.kind = .set ∧
              (selector, size) ∈ [(0x04#8, 2), (0x11#8, 5)] ∧ rest = first :: count :: data ∧
              result = (if data.length = size * count.toNat then 2#8 else 4#8)))))) →
      exec .managementRequestBadSelector s = .next (s.answered f [result]))

/-! ## Level-mode lines -/

/-- A line set to a level mode while its filtered level is the active one latches its source at the SET, after the RESULT
has been queued: the generation advances and EVENT SOURCE is made if the bit was clear (R115, R91, R165). A CLEAR of the
Wake Latch that names such a line latches it again at the same event: the bit stays set and the generation advances (R94,
R114). In WORKING with the Storm Monitor disabled nothing else comes of either. -/
def Obligations.LevelModeLinesLatchAtSetAndAtClear : Prop :=
  ∀ (s : State) (f : Frame) (k : WakeLine), s.Waiting f → s.eng.platform = .working → s.RailsGood →
    ticks s.wake.window = 0 → s.wake.armed = 0#16 →
    (∀ code : TimeCode, f.kind = .set → s.up.own.length < 23 → s.wake.latch.getLsbD (k.val + 2) = false →
      f.payload = [0x0B#8, BitVec.ofNat 8 k.val, 1#8, (if s.qual.lines[k].level then 3#8 else 4#8), code] →
      ∃ t, exec .setLineQualifiers s = .next t ∧
        t.qual.lines[k].mode = (if s.qual.lines[k].level then .high else .low) ∧ t.qual.lines[k].filter = code ∧
        t.wake.latch = s.wake.latch ||| BitVec.twoPow 16 (k.val + 2) ∧ t.wake.generation = s.wake.generation + 1#16 ∧
        t.up.own = s.up.own ++ [⟨0#6, 63#6, .result, f.tag, false, [0#8]⟩,
          ⟨0#6, 63#6, .event, 0#4, false,
            [0#8, BitVec.ofNat 8 (k.val + 2)] ++ bytes16 (s.wake.generation + 1#16)⟩] ∧
        t.eng = s.eng ∧ t.dom = s.dom) ∧
    (f.kind = .clear → f.payload = [0x08#8] ++ bytes16 (BitVec.twoPow 16 (k.val + 2)) →
      s.wake.latch.getLsbD (k.val + 2) = true →
      (s.qual.lines[k]).mode = (if s.qual.lines[k].level then .high else .low) →
      ∃ t, exec .clearWakeLatch s = .next t ∧ t.wake.latch = s.wake.latch ∧
        t.wake.generation = s.wake.generation + 1#16 ∧ t.eng = s.eng ∧ t.dom = s.dom ∧ t.qual = s.qual)

/-! ## The Traffic Gate and the Message Matcher -/

/-- The Gate takes a downstream message by the tests of R139 in their order: unmapped, forwarded; a held record for the
destination, held behind it and releasable with it; in FORCING, forwarded to a domain ON or IDLE, else refused; an
outstanding order to another state, refused; one to ON, held; ON or IDLE, forwarded; rising, held; else refused. An upstream
ANSWER passes while the link is UP and is discarded and counted while it is DOWN (R142). -/
def Obligations.TrafficPassesTheGateByTheTables : Prop :=
  (∀ (s : State) (f : Frame), s.DownMessage f → s.up.own.length < 23 →
    (s.mapped f.dest = none →
      exec .downstreamTraffic s = .next { s.upTaken with down := { s.down with forwarded := some f } }) ∧
    ∀ d : Domain, s.mapped f.dest = some d →
      ((∃ r ∈ s.gate.hold, r.up = false ∧ r.frame.dest = f.dest) →
        ((∃ r ∈ s.gate.hold, r.up = false ∧ r.frame.dest = f.dest ∧ r.releasable = true) →
          exec .downstreamTraffic s = .next (s.downHeld f true)) ∧
        ((∀ r ∈ s.gate.hold, r.up = false → r.frame.dest = f.dest → r.releasable = false) →
          exec .downstreamTraffic s = .next (s.downHeld f false))) ∧
      ((∀ r ∈ s.gate.hold, r.up = false → r.frame.dest ≠ f.dest) →
        (s.eng.platform = .forcing →
          (s.recorded d = .on ∨ s.recorded d = .idle →
            exec .downstreamTraffic s = .next { s.upTaken with down := { s.down with forwarded := some f } }) ∧
          (s.recorded d ≠ .on → s.recorded d ≠ .idle → exec .downstreamTraffic s = .next (s.downRefused f))) ∧
        (s.eng.platform ≠ .forcing →
          ((∃ o ∈ s.eng.orders, o.domain = d ∧ o.target ≠ .on) →
            exec .downstreamTraffic s = .next (s.downRefused f)) ∧
          ((∀ o ∈ s.eng.orders, o.domain = d → o.target = .on) →
            ((∃ o ∈ s.eng.orders, o.domain = d) → exec .downstreamTraffic s = .next (s.downHeld f false)) ∧
            ((∀ o ∈ s.eng.orders, o.domain ≠ d) →
              (s.recorded d = .on ∨ s.recorded d = .idle →
                exec .downstreamTraffic s = .next { s.upTaken with down := { s.down with forwarded := some f } }) ∧
              (s.recorded d ≠ .on → s.recorded d ≠ .idle →
                (s.eng.rising.getLsbD d = true → exec .downstreamTraffic s = .next (s.downHeld f false)) ∧
                (s.eng.rising.getLsbD d = false → exec .downstreamTraffic s = .next (s.downRefused f)))))))) ∧
  (∀ (s : State) (f : Frame), s.UpMessage f → f.kind = .answer →
    (s.dom.linkUp = true →
      exec .upstreamAnswer s = .next { s.downTaken with up := { s.up with forwarded := some f } }) ∧
    (s.dom.linkUp = false → exec .upstreamAnswer s = .next s.downTaken.discardedOne))

/-- The presence stage of a field test: with L payload bytes, the test fails where the byte index of the field's lowest bit is
L or greater, under either sense; else the window decides. That index lies from o to o + 3, with L = 0 every field is absent,
and with offset 31 a field is present only where L is 32 and lsb is 24 or more (R129). -/
def Obligations.FieldPresenceDecidesTheFieldTest : Prop :=
  ∀ (e : MatchEntry) (p : List Byte), e.fieldTest = true → p.length ≤ 32 →
    (p.length ≤ e.offset.val + (31 - e.lsb.val) / 8 → testPasses e p = false) ∧
    (e.offset.val + (31 - e.lsb.val) / 8 < p.length → testPasses e p = (insideWindow e p != e.outside)) ∧
    e.offset.val ≤ e.offset.val + (31 - e.lsb.val) / 8 ∧
    e.offset.val + (31 - e.lsb.val) / 8 ≤ e.offset.val + 3 ∧
    (p.length = 0 → testPasses e p = false) ∧
    (e.offset.val = 31 →
      (e.offset.val + (31 - e.lsb.val) / 8 < p.length ↔ p.length = 32 ∧ 24 ≤ e.lsb.val))

/-- The window word is made of four payload bytes, those past the payload or past index 31 counting as 0; the field is
the number in bits msb down to lsb of it; bytes that come after the payload's end do not change a present field (R130). -/
def Obligations.FieldIsCutFromTheWindowWord : Prop :=
  ∀ (e : MatchEntry) (p : List Byte) (byte : Nat → Nat), e.lsb ≤ e.msb →
    (∀ i, byte i = if i < 32 then ((p[i]?).getD 0#8).toNat else 0) →
    (windowWord e p).toNat = byte e.offset.val * 2 ^ 24 + byte (e.offset.val + 1) * 2 ^ 16
      + byte (e.offset.val + 2) * 2 ^ 8 + byte (e.offset.val + 3) ∧
    1 ≤ e.msb.val - e.lsb.val + 1 ∧ e.msb.val - e.lsb.val + 1 ≤ 32 ∧
    fieldOf e p = (windowWord e p).toNat / 2 ^ e.lsb.val % 2 ^ (e.msb.val - e.lsb.val + 1) ∧
    fieldOf e p ≤ 2 ^ (e.msb.val - e.lsb.val + 1) - 1 ∧
    (∀ i, i < e.msb.val - e.lsb.val + 1 → (fieldOf e p).testBit i = (windowWord e p).getLsbD (e.lsb.val + i)) ∧
    (e.msb.val = 31 → e.lsb.val = 0 → fieldOf e p = (windowWord e p).toNat) ∧
    (∀ extra : List Byte, e.offset.val + (31 - e.lsb.val) / 8 < p.length → fieldOf e (p ++ extra) = fieldOf e p)

/-- The value of a field is F, or F less 2^w for a signed field with F at least 2^(w − 1); it is inside the window when it lies
from low to high as the signed flag reads them; INSIDE passes inside and OUTSIDE passes outside, so an empty window passes
every present field under OUTSIDE and none under INSIDE (R131). -/
def Obligations.FieldValueIsPlacedAgainstTheWindow : Prop :=
  ∀ (e : MatchEntry) (p : List Byte) (w : Nat), e.lsb ≤ e.msb → w = e.msb.val - e.lsb.val + 1 →
    (e.signed = true → 2 ^ (w - 1) ≤ fieldOf e p → fieldValue e p = (fieldOf e p : Int) - 2 ^ w) ∧
    (e.signed = false ∨ fieldOf e p < 2 ^ (w - 1) → fieldValue e p = (fieldOf e p : Int)) ∧
    (e.signed = true → -(2 ^ (w - 1) : Int) ≤ fieldValue e p ∧ fieldValue e p ≤ 2 ^ (w - 1) - 1) ∧
    (e.signed = true → w = 1 → fieldValue e p = 0 ∨ fieldValue e p = -1) ∧
    (e.signed = true → w = 32 → fieldValue e p = (windowWord e p).toInt) ∧
    (e.signed = true → boundValue e e.low = e.low.toInt ∧ boundValue e e.high = e.high.toInt) ∧
    (e.signed = false → boundValue e e.low = (e.low.toNat : Int) ∧ boundValue e e.high = (e.high.toNat : Int)) ∧
    (insideWindow e p = true ↔ boundValue e e.low ≤ fieldValue e p ∧ fieldValue e p ≤ boundValue e e.high) ∧
    (e.fieldTest = true → fieldPresent e p = true →
      (e.outside = false → testPasses e p = insideWindow e p) ∧
      (e.outside = true → testPasses e p = !insideWindow e p) ∧
      (boundValue e e.high < boundValue e e.low → testPasses e p = e.outside)) ∧
    (e.low = 0xFFFFFFF0#32 → e.high = 0#32 →
      (e.signed = true → (insideWindow e p = true ↔ -16 ≤ fieldValue e p ∧ fieldValue e p ≤ 0)) ∧
      (e.signed = false → insideWindow e p = false))

/-- With the link UP every message is forwarded as it arrived. A hit's run count rises by 1, or returns to 0 where it reaches
the qualifier; selecting entries before it that failed have run count 0, as have all that selected where none passed; other
entries are as they were (R128, R132, R134). A firing WAKE or WAKE+KEEP entry latches its source first, here one that is not
armed with the Storm Monitor disabled, and the message is forwarded behind the EVENT (R135, R91). -/
def Obligations.MatcherForwardsAndCountsRuns : Prop :=
  ∀ (s : State) (f : Frame), s.UpMessage f → f.kind = .note ∨ f.kind = .ask ∨ f.kind = .alert →
    s.dom.linkUp = true → s.RailsGood →
    (∀ i : Fin 24, s.Hits f i →
      s.matcher.table[i].run + 1 < s.matcher.table[i].qualifier ∨ s.matcher.table[i].action = .drop ∨
        s.matcher.table[i].action = .keep →
      ∃ table, s.TableAfterHit f i
          (if s.matcher.table[i].run + 1 < s.matcher.table[i].qualifier then s.matcher.table[i].run + 1 else 0) table ∧
        exec .matcherTakeMessage s =
          .next { s.downTaken with matcher := ⟨table⟩, up := { s.up with forwarded := some f } }) ∧
    (∀ (i : Fin 24) (src : Source), s.Hits f i → s.matcher.table[i].qualifier ≤ s.matcher.table[i].run + 1 →
      s.matcher.table[i].action = .wake ∨ s.matcher.table[i].action = .wakeKeep →
      s.matcher.table[i].source = BitVec.ofNat 6 src.val → 10 ≤ src.val → s.wake.armed.getLsbD src = false →
      ticks s.wake.window = 0 → s.up.own.length < 23 →
      ∃ table, s.TableAfterHit f i 0 table ∧ ∀ t, t = State.latched { s.downTaken with matcher := ⟨table⟩ } src →
        exec .matcherTakeMessage s = .next { t with up := { t.up with forwarded := some f } }) ∧
    ((∀ i : Fin 24, ¬ (s.matcher.table[i].Selects f ∧ testPasses s.matcher.table[i] f.payload = true)) →
      ∃ table : Vector MatchEntry 24,
        (∀ j : Fin 24, s.matcher.table[j].Selects f → table[j] = { s.matcher.table[j] with run := 0 }) ∧
        (∀ j : Fin 24, ¬ s.matcher.table[j].Selects f → table[j] = s.matcher.table[j]) ∧
        exec .matcherTakeMessage s =
          .next { s.downTaken with matcher := ⟨table⟩, up := { s.up with forwarded := some f } })

/-- With the link DOWN a message is discarded and counted, an ASK answered ASLEEP, unless a KEEP or WAKE+KEEP entry fires
outside WORKING, which keeps it as an UP record or refuses it for a full Hold Queue; a firing WAKE part latches the entry's
source first. Here no entry before the hit selects the message, the source is not armed and the Storm Monitor is
disabled (R134, R135, R142, R143). -/
def Obligations.MatcherDisposesWithTheLinkDown : Prop :=
  ∀ (s : State) (f : Frame), s.UpMessage f → f.kind = .note ∨ f.kind = .ask ∨ f.kind = .alert →
    s.dom.linkUp = false → s.RailsGood → s.down.own.length < 24 → ticks s.wake.window = 0 →
    ((∀ j : Fin 24, ¬ s.matcher.table[j].Selects f) → exec .matcherTakeMessage s = .next (s.upDropped f)) ∧
    ∀ (i : Fin 24) (e : MatchEntry) (counted : State), s.Hits f i → (∀ j : Fin 24, j < i → ¬ s.matcher.table[j].Selects f) →
      s.matcher.table[i] = e →
      (∀ run, run = (if e.run + 1 < e.qualifier then e.run + 1 else 0) →
        counted = { s with matcher := ⟨s.matcher.table.set i { e with run := run }⟩ }) →
      (e.run + 1 < e.qualifier ∨ e.action = .drop →
        exec .matcherTakeMessage s = .next (counted.upDropped f)) ∧
      (e.qualifier ≤ e.run + 1 → e.action = .keep →
        (s.eng.platform = .working → exec .matcherTakeMessage s = .next (counted.upDropped f)) ∧
        (s.eng.platform ≠ .working → exec .matcherTakeMessage s = .next (counted.upKept f false))) ∧
      (∀ src : Source, e.qualifier ≤ e.run + 1 → e.source = BitVec.ofNat 6 src.val → 10 ≤ src.val →
        s.wake.armed.getLsbD src = false →
        (e.action = .wake → exec .matcherTakeMessage s = .next ((counted.latched src).upDropped f)) ∧
        (e.action = .wakeKeep → s.eng.platform ≠ .working →
          exec .matcherTakeMessage s = .next ((counted.latched src).upKept f false)))

/-! ## Members of a group -/

/-- A matched ORDER-DONE ends its member while others run on: the entry goes, the domain takes the reached state; the target
state completes the member, which pushes an undo record if it is reversible and the platform ENTERING; another state is a
failure with STATE-MISMATCH, here under CONTINUE (R52, R57, R58). For a domain that is not the controller's no record is held
here, but for an ORDER to ON that completes: then the held DOWN records of its domain become releasable, whatever the Hold
Queue holds (R145). An ORDER to ON of the controller domain that completes takes the link UP too (R19), and the held UP records
become releasable if the permit is set (R146). -/
def Obligations.OrderDoneEndsItsMember : Prop :=
  ∀ (s : State) (f : Frame) (m : Member) (before after : List Member) (d : Domain) (target reached : OrdState)
    (rev : Bool) (first last : List OrderEntry) (rest : List Byte),
    s.DoneWaits f → f.payload = BitVec.ofNat 8 reached.code :: rest → s.RailsGood → s.RunsWith m before after →
    m.plan.step.action = .order d target rev → m.plan.step.policy = .continue →
    s.eng.orders = first ++ ⟨d, f.src, f.tag, target, some m.plan.position⟩ :: last →
    (∀ x ∈ first, x.agent ≠ f.src ∨ x.tag ≠ f.tag) →
    (d ≠ s.dom.controller → s.gate.hold = [] → reached = target → exec .orderDone s = .next
      ((s.downTaken.recordedAs d reached.toDom s.dom.status[d].lastCause).memberEnded (before ++ after) m
        (if rev = true ∧ s.eng.platform.isEntering = true
          then [⟨m.plan.index, .order d m.priorState, m.plan.step.code⟩] else []))) ∧
    (d ≠ s.dom.controller → s.gate.hold = [] → reached ≠ target → exec .orderDone s = .next
      ((s.downTaken.recordedAs d reached.toDom (some .stateMismatch)).memberEnded (before ++ after) m [])) ∧
    (d ≠ s.dom.controller → reached = .on → target = .on → exec .orderDone s = .next
      { (s.downTaken.recordedAs d .on s.dom.status[d].lastCause).memberEnded (before ++ after) m
          (if rev = true ∧ s.eng.platform.isEntering = true
            then [⟨m.plan.index, .order d m.priorState, m.plan.step.code⟩] else []) with
        gate := { s.gate with hold := s.released d } }) ∧
    (∀ t, d = s.dom.controller → reached = .on → target = .on → s.dom.linkUp = false →
      t = (s.downTaken.recordedAs d .on s.dom.status[d].lastCause).memberEnded (before ++ after) m
        (if rev = true ∧ s.eng.platform.isEntering = true
          then [⟨m.plan.index, .order d m.priorState, m.plan.step.code⟩] else []) →
      exec .orderDone s = .next { t with
        dom := { t.dom with linkUp := true },
        gate := { s.gate with hold := (s.released d).map fun r =>
          if s.gate.permit = true ∧ r.up = true then { r with releasable := true } else r } })

/-- An ORDER-DONE whose reached state is none is discarded and counted. One that matches no entry is a late completion if
the sender serves a domain recorded UNKNOWN: the domain takes the reached state, LATE rises, no cause is written, and the
domain leaves the Rising set unless the state is ON; otherwise STRAY rises and nothing is written (R52, R54). -/
def Obligations.UnmatchedOrderDoneIsLateOrStray : Prop :=
  ∀ (s : State) (f : Frame), s.DoneWaits f → s.RailsGood →
    (∀ (b : Byte) (rest : List Byte), f.payload = [] ∨ (f.payload = b :: rest ∧ 4 ≤ b.toNat) →
      exec .orderDone s = .next s.downTaken.discardedOne) ∧
    (∀ (reached : OrdState) (rest : List Byte), f.payload = BitVec.ofNat 8 reached.code :: rest →
      (∀ o ∈ s.eng.orders, o.agent ≠ f.src ∨ o.tag ≠ f.tag) →
      (∀ d : Domain, s.servedDomain f.src = some d → s.recorded d = .unknown → d ≠ s.dom.controller → s.gate.hold = [] →
        exec .orderDone s = .next
          (let t := s.downTaken.recordedAs d reached.toDom s.dom.status[d].lastCause
           { t with
              mgmt := { s.mgmt with counters := { s.mgmt.counters with late := min 255 (s.mgmt.counters.late + 1) } },
              eng := { s.eng with rising :=
                if reached = .on then s.eng.rising else s.eng.rising &&& ~~~ BitVec.twoPow 12 d } })) ∧
      ((∀ d : Domain, s.servedDomain f.src = some d → s.recorded d ≠ .unknown) →
        exec .orderDone s = .next { s.downTaken with
          mgmt := { s.mgmt with counters := { s.mgmt.counters with stray := min 255 (s.mgmt.counters.stray + 1) } } }))

/-- The step timers end their members while others run on. ORDER and AWAIT-GOOD fail with STEP-TIMEOUT, here under
CONTINUE, the domain UNKNOWN and the ORDER's entry gone; LINE and DELAY complete, a state on completion written, a
reversible LINE pushing an undo record in ENTERING (R53, R55, R56, R57, R58). The domain is not the controller's and no
record is held; a LINE that writes the controller domain's state other than ON takes the link DOWN: the upstream own-frame
queue, output FIFO and forwarded message are discarded and counted (R19, R20). -/
def Obligations.StepTimersEndTheirMembers : Prop :=
  ∀ (s : State) (m : Member) (before after : List Member), s.RunsWith m before after → s.RailsGood → s.gate.hold = [] →
    m.timer.isSome = true →
    (∀ (d : Domain) (target : OrdState) (rev : Bool), m.plan.step.action = .order d target rev →
      m.plan.step.policy = .continue → d ≠ s.dom.controller →
      exec (.orderTimeout m.plan.position) s =
        .next ((s.recordedAs d .unknown (some .stepTimeout)).memberEnded (before ++ after) m [])) ∧
    (∀ (d : Domain) (asserted : Bool) (done : Option OrdState), m.plan.step.action = .awaitGood d asserted done →
      m.plan.step.policy = .continue → d ≠ s.dom.controller →
      exec (.awaitGoodTimeout m.plan.position) s =
        .next ((s.recordedAs d .unknown (some .stepTimeout)).memberEnded (before ++ after) m [])) ∧
    (∀ (l : EnLine) (high rev : Bool), m.plan.step.action = .line none l high rev →
      exec (.lineSettleExpiry m.plan.position) s = .next (s.memberEnded (before ++ after) m
        (if rev = true ∧ s.eng.platform.isEntering = true
          then [⟨m.plan.index, .line none l m.priorLevel, m.plan.step.code⟩] else []))) ∧
    (∀ (d : Domain) (st : OrdState) (l : EnLine) (high rev : Bool), m.plan.step.action = .line (some (d, some st)) l high rev →
      d ≠ s.dom.controller →
      exec (.lineSettleExpiry m.plan.position) s =
        .next ((s.recordedAs d st.toDom s.dom.status[d].lastCause).memberEnded (before ++ after) m
          (if rev = true ∧ s.eng.platform.isEntering = true
            then [⟨m.plan.index, .line (some (d, m.priorState)) l m.priorLevel, m.plan.step.code⟩] else []))) ∧
    (∀ (st : OrdState) (l : EnLine) (high : Bool) (status : DomainStatus),
      m.plan.step.action = .line (some (s.dom.controller, some st)) l high false → st ≠ .on → s.ldr.loading = none →
      s.dom.linkUp = true → status = { s.dom.status[s.dom.controller] with recorded := st.toDom } →
      exec (.lineSettleExpiry m.plan.position) s = .next
        { s.memberEnded (before ++ after) m [] with
          dom := { s.dom with status := s.dom.status.set s.dom.controller status, linkUp := false },
          up := { s.up with own := [], output := [], forwarded := none },
          mgmt := { s.mgmt with counters := { s.mgmt.counters with
            discarded := min 255 (s.mgmt.counters.discarded + (s.up.own.length + s.up.output.length +
              (if s.up.forwarded.isSome = true then 1 else 0))) } } }) ∧
    (m.plan.step.action = .delay none →
      exec (.delayExpiry m.plan.position) s = .next (s.memberEnded (before ++ after) m [])) ∧
    (∀ (d : Domain) (st : OrdState), m.plan.step.action = .delay (some (d, some st)) → d ≠ s.dom.controller →
      exec (.delayExpiry m.plan.position) s =
        .next ((s.recordedAs d st.toDom s.dom.status[d].lastCause).memberEnded (before ++ after) m []))

/-- An ORDER that times out under ABORT in ENTERING, the only member running: the domain is UNKNOWN with STEP-TIMEOUT, the
Plan and the Armed set are emptied, and unwinding begins. With an empty Undo Stack it ends at once: WORKING and a REPORT
ABORTED with the step's index and the pending source. A LINE record with a settle time is undone first: its line takes the
prior level and its timer runs (R58 to R60, R72, R75, R76). -/
def Obligations.AbortUnderEnteringUnwinds : Prop :=
  ∀ (s : State) (m : Member) (t : Sleep) (d : Domain) (target : OrdState) (rev : Bool),
    s.eng.platform = .entering t → s.eng.running = [m] → m.timer.isSome = true → m.plan.step.action = .order d target rev →
    m.plan.step.policy = .abort → s.eng.orders = [] ∨ (∃ o, s.eng.orders = [o] ∧ o.position = some m.plan.position) →
    s.RailsGood → s.gate.hold = [] → d ≠ s.dom.controller → s.dom.linkUp = false →
    (s.eng.undoStack = [] → ∃ u, exec (.orderTimeout m.plan.position) s = .next u ∧
      u.eng.platform = .working ∧ u.eng.plan = none ∧ u.eng.running = [] ∧ u.eng.orders = [] ∧ u.eng.rising = 0#12 ∧
      u.eng.abortPending = none ∧ u.eng.undo = none ∧ u.wake.armed = 0#16 ∧ u.wake.latch = s.wake.latch ∧
      u.dom = (s.recordedAs d .unknown (some .stepTimeout)).dom ∧ u.lines = s.lines ∧ u.up = s.up ∧ u.down = s.down ∧
      ∃ unknown : DomainSet, (∀ e : Domain, unknown.getLsbD e = decide (u.recorded e = .unknown)) ∧
        u.eng.lastReport = some ⟨some t.code, .aborted, .stepTimeout, some m.plan.index, s.eng.abortPending, unknown⟩) ∧
    (∀ (r : UndoRecord) (rest : List UndoRecord) (p : Option (Domain × DomState)) (l : EnLine) (high : Bool),
      s.eng.undoStack = r :: rest → r.action = .line p l high → ticks r.code ≠ 0 →
      ∃ u, exec (.orderTimeout m.plan.position) s = .next u ∧
        u.eng.platform = .unwinding t ∧ u.eng.plan = none ∧ u.eng.running = [] ∧ u.eng.orders = [] ∧
        u.eng.undoStack = rest ∧ u.eng.undo = some ⟨r, some (ticks r.code)⟩ ∧ u.wake.armed = 0#16 ∧
        (∀ e : Domain, u.eng.rising.getLsbD e = (r :: rest).any fun x => decide (x.action.restoresOn = some e)) ∧
        (∀ k : EnLine, u.lines.levels.getLsbD k = if k = l then high else s.lines.levels.getLsbD k) ∧
        u.lines.safe = s.lines.safe ∧ u.dom = (s.recordedAs d .unknown (some .stepTimeout)).dom ∧
        u.eng.lastReport = s.eng.lastReport)

/-- The last member of an entry's last group completes, here a DELAY. With no abort pending the platform is in the target
state, the Plan, the Rising set and the Undo Stack are empty, the Wake Arm is set, the sleep-duration counter starts from 0
and a REPORT COMPLETED is made and sent with the link UP; no armed source is latched here (R62). With an abort pending and
an empty Undo Stack the platform is WORKING and the REPORT says ABORTED, WAKE and the source (R48, R70, R76). The DOWN records
held for domains still in the Rising set and not ON leave in queue order at the entry's end: with the link UP their ASKs are
answered ASLEEP, and the others, or all with the link DOWN, are discarded and counted (R143, R148). That these answers stand
ahead of the REPORT is log entry 30 (DEDUCED): the rules do not say where that pass stands among the event's frames. -/
def Obligations.LastMemberEndsTheEntry : Prop :=
  ∀ (s : State) (m : Member) (t : Sleep), s.eng.platform = .entering t → s.RunsLast m → m.timer.isSome = true →
    m.plan.step.action = .delay none → s.eng.orders = [] → s.RailsGood →
    (∀ leaving : List HoldRecord, s.eng.abortPending = none → s.wake.latch &&& s.wake.armed = 0#16 →
      leaving = s.gate.hold.filter s.HeldForRising → s.up.own.length + leaving.length < 23 →
      s.mgmt.counters.discarded ≤ 255 →
      ∃ u, exec (.delayExpiry m.plan.position) s = .next u ∧ u.eng.platform = .rest t ∧ u.eng.rising = 0#12 ∧
        u.gate = { s.gate with hold := s.gate.hold.filter fun r => !s.HeldForRising r } ∧
        (s.dom.linkUp = true → (∃ report : Frame, report.kind = .report ∧
            u.up.own = s.up.own ++ (leaving.filter fun r => decide (r.frame.kind = .ask)).map (fun r =>
              gateAnswer r.frame 1#8) ++ [report]) ∧
          u.mgmt.counters.discarded = min 255 (s.mgmt.counters.discarded +
            (leaving.filter fun r => decide (r.frame.kind ≠ .ask)).length)) ∧
        (s.dom.linkUp = false → u.up = s.up ∧
          u.mgmt.counters.discarded = min 255 (s.mgmt.counters.discarded + leaving.length))) ∧
    (s.gate.hold = [] → s.up.own.length < 23 → s.eng.abortPending = none → s.wake.latch &&& s.wake.armed = 0#16 →
      ∃ u unknown, exec (.delayExpiry m.plan.position) s = .next u ∧
        u.eng.platform = .rest t ∧ u.eng.plan = none ∧ u.eng.running = [] ∧ u.eng.rising = 0#12 ∧ u.eng.undoStack = [] ∧
        u.wake = { s.wake with arm := true } ∧ u.qual = { s.qual with sleepCount := 0, sleepCounting := true } ∧
        (∀ e : Domain, unknown.getLsbD e = decide (s.recorded e = .unknown)) ∧
        u.eng.lastReport = some ⟨some t.code, .completed, .noCause, none, none, unknown⟩ ∧
        u.up = (if s.dom.linkUp then
          { s.up with own := s.up.own ++ [⟨0#6, 63#6, .report, 0#4, false,
              [BitVec.ofNat 8 t.code, 0#8, 0#8, 0xFF#8, 0xFF#8] ++ bytes16 (unknown.setWidth 16)⟩] } else s.up) ∧
        u.dom = s.dom ∧ u.lines = s.lines ∧ u.gate = s.gate ∧ u.down = s.down) ∧
    (∀ src, s.gate.hold = [] → s.up.own.length < 23 → s.eng.abortPending = some src → s.eng.undoStack = [] →
      ∃ u unknown, exec (.delayExpiry m.plan.position) s = .next u ∧
        u.eng.platform = .working ∧ u.eng.plan = none ∧ u.eng.running = [] ∧ u.eng.rising = 0#12 ∧
        u.eng.abortPending = none ∧ u.wake = { s.wake with armed := 0#16 } ∧ u.qual = s.qual ∧
        (∀ e : Domain, unknown.getLsbD e = decide (s.recorded e = .unknown)) ∧
        u.eng.lastReport = some ⟨some t.code, .aborted, .wake, none, some src, unknown⟩ ∧
        u.dom = s.dom ∧ u.lines = s.lines)

/-- The last member of a wake sequence completes, here a DELAY. With every required domain ON the platform is WORKING, the
Last Report reads COMPLETED, the RESUME is queued with the Wake Context and the generation of this event, and the UP records
become releasable (R64, R146). With a required domain not ON and FORCED-OFF empty, the safe levels are driven, every domain
is OFF, the link is DOWN, the platform SOFTOFF and armed, and the REPORT says FORCED, RESUME-CHECK (R65, R80, R82). The
RESUME's first byte, the from-state coded 1, 2 or 3, is log entry 22. -/
def Obligations.LastMemberEndsTheWake : Prop :=
  ∀ (s : State) (m : Member) (x : Sleep) (c : WakeContext), s.eng.platform = .waking x → s.RunsLast m →
    m.timer.isSome = true → m.plan.step.action = .delay none → s.eng.orders = [] → s.RailsGood → s.eng.rising = 0#12 →
    s.dom.linkUp = true → s.ldr.loading = none → s.up.own.length < 23 → s.eng.undo = none → s.wake.context = some c →
    ((∀ d : Domain, (s.config d).required = true → s.recorded d = .on) →
      ∃ u unknown faults, exec (.delayExpiry m.plan.position) s = .next u ∧
        u.eng.platform = .working ∧ u.eng.plan = none ∧ u.eng.running = [] ∧ u.eng.rising = 0#12 ∧
        (∀ e : Domain, unknown.getLsbD e = decide (s.recorded e = .unknown)) ∧
        (∀ e : Domain, faults.getLsbD e = decide (s.dom.status[e].fault ≠ .noFault)) ∧
        u.eng.lastReport = some ⟨some (3 + x.code), .completed, .noCause, none, none, unknown⟩ ∧
        u.up = { s.up with own := s.up.own ++ [⟨0#6, 63#6, .resume, 0#4, false,
          [BitVec.ofNat 8 c.fromState.stateCode, c.reason.code] ++ bytes16 c.latch ++ bytes16 c.armed ++
            bytes16 s.wake.generation ++ bytes24 c.sleepDuration ++ bytes16 ((faults : DomainSet).setWidth 16)⟩] } ∧
        u.gate.hold = (s.gate.hold.map fun r => if r.up then { r with releasable := true } else r) ∧
        u.gate.permit = s.gate.hold.any (fun r => r.up) ∧
        u.dom = s.dom ∧ u.wake = s.wake ∧ u.qual = s.qual ∧ u.lines = s.lines) ∧
    (∀ d : Domain, (s.config d).required = true → s.recorded d ≠ .on → (s.dirEntry 6).count = 0 →
      ∃ u, exec (.delayExpiry m.plan.position) s = .next u ∧
        u.eng.platform = .rest .softoff ∧ u.eng.plan = none ∧ u.eng.running = [] ∧ u.eng.rising = 0#12 ∧
        u.lines = { s.lines with levels := s.lines.safe } ∧ s.AllOffAfter u ∧ u.dom.linkUp = false ∧
        u.wake.arm = true ∧ u.wake.armed = s.armedFor .softoff ∧ u.wake.context = some c ∧
        u.qual.sleepCount = 0 ∧ u.qual.sleepCounting = true ∧ u.gate.permit = false ∧
        u.gate.hold = s.gate.hold.filter (fun r => r.up) ∧ u.eng.forcingCause = none ∧
        u.eng.lastReport = some ⟨some (3 + x.code), .forced, .resumeCheck, none, none, 0#12⟩)

/-- The timers of an undo. An undo ORDER that times out leaves its domain UNKNOWN with STEP-TIMEOUT, a LINE undo that has
settled writes its domain's prior state; with the Undo Stack empty the platform is then WORKING and a REPORT ABORTED with
the kept cause, index and source is made; with an ORDER record on top, its ORDER goes out with the next tag, to the prior
state, or to ON where that was UNKNOWN (R73 to R76). An ORDER-DONE matched to the undo's entry ends it too: its target state
is recorded, another leaves the domain UNKNOWN with STATE-MISMATCH (R74). The domain is not the controller's; no record is
held. -/
def Obligations.UndoEventsGoOnOrEndTheUnwinding : Prop :=
  ∀ (s : State) (u : UndoRun) (t : Sleep) (info : UnwindInfo), s.eng.platform = .unwinding t → s.eng.undo = some u →
    s.eng.unwind = some info → s.RailsGood → s.gate.hold = [] → s.dom.linkUp = false →
    s.eng.running = [] → (∀ o ∈ s.eng.orders, o.position = none) →
    ∀ (c : Instr) (marked : State),
    ((∃ d prior, u.timer.isSome = true ∧ u.record.action = .order d prior ∧ d ≠ s.dom.controller ∧ c = .undoOrderTimeout ∧
        marked = s.recordedAs d .unknown (some .stepTimeout)) ∨
      (∃ d prior l high, u.timer.isSome = true ∧ u.record.action = .line (some (d, prior)) l high ∧ d ≠ s.dom.controller ∧
        c = .undoLineSettleExpiry ∧ marked = s.recordedAs d prior s.dom.status[d].lastCause) ∨
      (∃ l high, u.timer.isSome = true ∧ u.record.action = .line none l high ∧ c = .undoLineSettleExpiry ∧ marked = s) ∨
      (∃ (f : Frame) (d : Domain) (prior : DomState) (target reached : OrdState) (rest : List Byte), s.DoneWaits f ∧
        f.payload = BitVec.ofNat 8 reached.code :: rest ∧ u.record.action = .order d prior ∧ d ≠ s.dom.controller ∧
        s.eng.orders = [⟨d, f.src, f.tag, target, none⟩] ∧ c = .orderDone ∧
        marked = if reached = target then s.downTaken.recordedAs d reached.toDom s.dom.status[d].lastCause
          else s.downTaken.recordedAs d .unknown (some .stateMismatch))) →
    (s.eng.undoStack = [] → ∃ v unknown, exec c s = .next v ∧
      v.eng.platform = .working ∧ v.eng.undo = none ∧ v.eng.orders = [] ∧ v.eng.rising = 0#12 ∧ v.dom = marked.dom ∧
      (∀ e : Domain, unknown.getLsbD e = decide (v.recorded e = .unknown)) ∧
      v.eng.lastReport = some ⟨some t.code, .aborted, info.cause, info.failing, info.source, unknown⟩ ∧
      v.lines = s.lines ∧ v.wake = s.wake ∧ v.up = s.up ∧ v.down = marked.down) ∧
    (∀ (r : UndoRecord) (rest : List UndoRecord) (e : Domain) (prior : DomState) (a : Addr),
      s.eng.undoStack = r :: rest → r.action = .order e prior → (s.config e).agent = some a → s.down.own.length < 24 →
      ∃ v target, exec c s = .next v ∧
        target = (match prior with | .on => OrdState.on | .unknown => .on | .idle => .idle | .retain => .retain | .off => .off) ∧
        v.eng.platform = .unwinding t ∧ v.eng.undoStack = rest ∧
        v.eng.undo = some ⟨r, if ticks r.code = 0 then none else some (ticks r.code)⟩ ∧
        v.eng.orders = [⟨e, a, s.eng.tag, target, none⟩] ∧ v.eng.tag = s.eng.tag + 1#4 ∧
        v.down = { marked.down with
          own := s.down.own ++ [⟨a, 63#6, .order, s.eng.tag, false, [BitVec.ofNat 8 target.code]⟩] } ∧
        v.dom = marked.dom ∧ v.lines = s.lines ∧ v.wake = s.wake ∧ v.eng.lastReport = s.eng.lastReport)

/-! ## The Rail Monitor -/

/-- A deglitched level that changes is written and, with no member waiting for it and every rail good, nothing else changes;
a DEASSERTED line of one monitored domain under REPORT latches its rail fault with PG-LOST and sends EVENT RAIL-FAULT; an
AWAIT-GOOD member that waits for the level completes while others run on (R151, R152, R153, R154, R56). Under SHUTDOWN the
fault latches and, in SOFTOFF and FORCING, does no more; under a REINIT it is kept for the loading's end; else FORCING begins,
here with FORCED-OFF empty: safe levels, every domain OFF, SOFTOFF and a REPORT FORCED, RAIL-FAULT (R155, R82). A blanking
timer that expires ends QUALIFYING, and the fault latches again if the line is still DEASSERTED (R158). That a change to the
level already held leaves the state is log entry 1, and that a change sets the filter's count to 0 is log entry 29. -/
def Obligations.PowerGoodChangesCompleteOrLatch : Prop :=
  ∀ (s : State) (l : PgLine),
    (∀ a, s.pgLevel l = a → exec (.powerGoodChange l a) s = .next s) ∧
    (∀ a, s.pgLevel l ≠ a → (∀ (d : Domain) (k : PgLine), (s.config d).pgLine = some k → k ≠ l ∧ s.pgLevel k = true) →
      exec (.powerGoodChange l a) s = .next { s with mon := ⟨s.mon.pg.set l ⟨a, 0⟩⟩ }) ∧
    (∀ d : Domain, s.pgLevel l = true → (s.config d).pgLine = some l → (s.config d).policy = .report →
      (s.config d).monitors (s.recorded d) = true → s.dom.status[d].fault = .noFault → s.eng.running = [] →
      s.eng.undo = none → s.up.own.length < 23 →
      (∀ (e : Domain) (k : PgLine), e ≠ d → (s.config e).pgLine = some k → k ≠ l ∧ s.pgLevel k = true) →
      ∃ status : Vector DomainStatus 12,
        (∀ e : Domain, status[e] = if e = d
          then { s.dom.status[e] with fault := .latched, lastCause := some .pgLost } else s.dom.status[e]) ∧
        exec (.powerGoodChange l false) s = .next { s with
          mon := ⟨s.mon.pg.set l ⟨false, 0⟩⟩, dom := { s.dom with status := status },
          up := if s.dom.linkUp then
            { s.up with own := s.up.own ++ [⟨0#6, 63#6, .event, 0#4, false, [1#8, BitVec.ofNat 8 d.val]⟩] } else s.up }) ∧
    (∀ (d : Domain) (status : Vector DomainStatus 12), s.pgLevel l = true → (s.config d).pgLine = some l →
      (s.config d).policy = .shutdown → (s.config d).monitors (s.recorded d) = true → s.dom.status[d].fault = .noFault →
      (∀ m ∈ s.eng.running, m.plan.step.action = .delay none) → s.eng.undo = none →
      (∀ (e : Domain) (k : PgLine), e ≠ d → (s.config e).pgLine = some k → k ≠ l ∧ s.pgLevel k = true) →
      (∀ e : Domain, status[e] = if e = d
        then { s.dom.status[e] with fault := .latched, lastCause := some .pgLost } else s.dom.status[e]) →
      (s.eng.platform = .rest .softoff ∨ s.eng.platform = .forcing →
        exec (.powerGoodChange l false) s = .next { s with
          mon := ⟨s.mon.pg.set l ⟨false, 0⟩⟩, dom := { s.dom with status := status } }) ∧
      (∀ loading, s.eng.platform = .working → s.ldr.loading = some loading → loading.deferred = none →
        exec (.powerGoodChange l false) s = .next { s with
          mon := ⟨s.mon.pg.set l ⟨false, 0⟩⟩, dom := { s.dom with status := status },
          ldr := { s.ldr with loading := some { loading with deferred := some .railFault } } }) ∧
      (s.eng.platform ≠ .rest .softoff → s.eng.platform ≠ .forcing → s.ldr.loading = none → (s.dirEntry 6).count = 0 →
        ∃ u, exec (.powerGoodChange l false) s = .next u ∧ u.eng.platform = .rest .softoff ∧ u.eng.plan = none ∧
          u.eng.running = [] ∧ u.eng.undoStack = [] ∧ u.eng.abortPending = none ∧ u.eng.rising = 0#12 ∧
          u.lines = { s.lines with levels := s.lines.safe } ∧ u.dom.linkUp = false ∧ u.wake.arm = true ∧
          (∀ e : Domain, u.dom.status[e] = { status[e] with recorded := .off }) ∧
          u.eng.lastReport = some ⟨(match s.eng.platform with
            | .entering t => some t.code | .unwinding t => some t.code | .waking x => some (3 + x.code)
            | .working => none | .rest _ => none | .forcing => some 6), .forced, .railFault, none, none, 0#12⟩)) ∧
    (∀ (m : Member) (before after : List Member) (d : Domain), s.RunsWith m before after → s.pgLevel l = false →
      m.plan.step.action = .awaitGood d true none → (s.config d).pgLine = some l →
      (∀ x ∈ before ++ after, ∀ e a st, x.plan.step.action ≠ .awaitGood e a st) →
      (∀ (e : Domain) (k : PgLine), (s.config e).pgLine = some k → k = l ∨ s.pgLevel k = true) →
      exec (.powerGoodChange l true) s =
        .next { s.memberEnded (before ++ after) m [] with mon := ⟨s.mon.pg.set l ⟨true, 0⟩⟩ }) ∧
    (∀ d : Domain, s.dom.status[d].fault = .qualifying → s.dom.status[d].blanking.isSome = true →
      (∀ (e : Domain) (k : PgLine), e ≠ d → (s.config e).pgLine = some k → s.pgLevel k = true) →
      ∃ status : Vector DomainStatus 12, (∀ e : Domain, e ≠ d → status[e] = s.dom.status[e]) ∧
        ((s.config d).pgLine = none ∨ (∃ k, (s.config d).pgLine = some k ∧ s.pgLevel k = true) →
          status[d] = { s.dom.status[d] with fault := .noFault, blanking := none } ∧
          exec (.blankingExpiry d) s = .next { s with dom := { s.dom with status := status } }) ∧
        (∀ k, (s.config d).pgLine = some k → s.pgLevel k = false → (s.config d).monitors (s.recorded d) = true →
          s.eng.running = [] → s.eng.undo = none → (s.config d).policy = .report → s.dom.linkUp = false →
          status[d] = ⟨s.dom.status[d].recorded, .latched, some .pgLost, none⟩ ∧
          exec (.blankingExpiry d) s = .next { s with dom := { s.dom with status := status } }))

/-! ## Wake lines, button, seconds -/

/-- A filtered level that changes is written; where the line's mode does not name the change nothing else happens; where it
does, the line's source is latched, with the generation advanced and EVENT SOURCE made if the bit was clear. A source not
armed does no more. An armed one in ENTERING before the commit point makes an abort pending, if none is (R91, R112, R113,
R68). The Storm Monitor is disabled here. That a change to the level already held leaves the state is log entry 1, and
which event reaches the commit point is log entry 14. -/
def Obligations.LineChangesLatchTheirSource : Prop :=
  ∀ (s : State) (k : WakeLine) (high : Bool) (written : State),
    written = { s with qual := { s.qual with lines := s.qual.lines.set k ⟨s.qual.lines[k].mode, s.qual.lines[k].filter, high, none⟩ } } →
    (s.qual.lines[k].level = high → exec (.lineFilteredChange k high) s = .next s) ∧
    (s.qual.lines[k].level ≠ high →
      (s.qual.lines[k].mode = .disabled ∨ (high = true ∧ (s.qual.lines[k].mode = .fall ∨ s.qual.lines[k].mode = .low)) ∨
        (high = false ∧ (s.qual.lines[k].mode = .rise ∨ s.qual.lines[k].mode = .high)) →
        exec (.lineFilteredChange k high) s = .next written) ∧
      (s.qual.lines[k].mode = .both ∨ (high = true ∧ (s.qual.lines[k].mode = .rise ∨ s.qual.lines[k].mode = .high)) ∨
        (high = false ∧ (s.qual.lines[k].mode = .fall ∨ s.qual.lines[k].mode = .low)) →
        ∀ src : Source, src.val = k.val + 2 → ticks s.wake.window = 0 → s.RailsGood → s.up.own.length < 23 →
        (s.wake.armed.getLsbD src = false → exec (.lineFilteredChange k high) s = .next (written.latched src)) ∧
        (∀ t, s.wake.armed.getLsbD src = true → s.eng.platform = .entering t →
          (s.eng.abortPending = none → s.commitReached = false →
            exec (.lineFilteredChange k high) s =
              .next { written.latched src with eng := { s.eng with abortPending := some src } }) ∧
          (s.eng.abortPending.isSome = true ∨ s.commitReached = true →
            exec (.lineFilteredChange k high) s = .next (written.latched src)))))

/-- An armed latch in a sleep state: a wake is accepted with the lowest-numbered source both latched and armed as its
reason. The Wake Context is captured, the Wake Arm cleared, the Armed set emptied, the sleep-duration counter stopped, and
the wake sequence starts: the platform is WAKING and, the Plan beginning with an ORDER in a group of its own, the ORDER is
sent (R100, R102 to R104, R63, R44, R50). The Storm Monitor is disabled and the link DOWN. -/
def Obligations.ArmedLatchStartsTheWake : Prop :=
  ∀ (s : State) (k : WakeLine) (high : Bool) (x : Sleep) (src reason : Source) (steps rest : List PlanStep) (q : PlanStep)
    (d : Domain) (target : OrdState) (rev : Bool) (a : Addr) (latch : SourceSet),
    s.qual.lines[k].level ≠ high → s.qual.lines[k].mode = .both → src.val = k.val + 2 → ticks s.wake.window = 0 →
    s.RailsGood → s.eng.platform = .rest x → s.wake.arm = true → s.wake.armed.getLsbD src = true → s.dom.linkUp = false →
    latch = s.wake.latch ||| BitVec.twoPow 16 src →
    latch.getLsbD reason = true → s.wake.armed.getLsbD reason = true →
    (∀ i : Source, i < reason → latch.getLsbD i = false ∨ s.wake.armed.getLsbD i = false) →
    checkSequence s (3 + x.code) = .ok steps →
    (steps.filter fun y => y.step.guard.holds s.wake.armed (some reason)) = q :: rest →
    q.step.action = .order d target rev → q.step.join = false → (s.config d).agent = some a → s.down.own.length < 24 →
    ∃ u, exec (.lineFilteredChange k high) s = .next u ∧
      u.eng.platform = .waking x ∧ u.wake.arm = false ∧ u.wake.armed = 0#16 ∧ u.wake.latch = latch ∧
      u.wake.generation = (if s.wake.latch.getLsbD src then s.wake.generation else s.wake.generation + 1#16) ∧
      u.wake.context = some ⟨x, .source reason, latch, s.wake.armed, s.qual.sleepCount⟩ ∧
      u.qual.sleepCounting = false ∧ u.qual.sleepCount = s.qual.sleepCount ∧
      u.eng.plan = some ⟨q :: rest, 1, (s.dirEntry (3 + x.code)).commit⟩ ∧
      u.eng.orders = s.eng.orders ++ [⟨d, a, s.eng.tag, target, some q.position⟩] ∧ u.eng.tag = s.eng.tag + 1#4 ∧
      u.down = { s.down with
        own := s.down.own ++ [⟨a, 63#6, .order, s.eng.tag, false, [BitVec.ofNat 8 target.code]⟩] } ∧
      (∀ e : Domain, u.eng.rising.getLsbD e = (q :: rest).any fun y => decide (y.step.action.endsOn = some e)) ∧
      u.dom = s.dom ∧ u.lines = s.lines ∧ u.gate = s.gate ∧ u.mgmt = s.mgmt

/-- A press makes a new record and starts both timers, a release stops them and keeps the record; nothing else changes. The
expiry of the press timer latches source 0 and marks the press latched, once (R116, R117). Where the override timer expires no
later, the press timer has no expiry of its own and the command changes nothing (R118; log entry 1). Source 0 is not armed. -/
def Obligations.ButtonPressesAndReleases : Prop :=
  ∀ s : State, s.RailsGood →
    (s.qual.button.state.level = false → ticks s.qual.button.pressMinimum ≠ 0 →
      exec .buttonPress s = .next { s with qual := { s.qual with button := { s.qual.button with
        state := ⟨true, 0⟩, latched := false, overridden := false,
        pressTimer := some (ticks s.qual.button.pressMinimum),
        overrideTimer := if ticks s.qual.button.override = 0 then none else some (ticks s.qual.button.override) } } }) ∧
    (s.qual.button.state.level = true →
      exec .buttonRelease s = .next { s with qual := { s.qual with button := { s.qual.button with
        state := ⟨false, 0⟩, pressTimer := none, overrideTimer := none } } }) ∧
    (s.wake.armed.getLsbD 0 = false → s.up.own.length < 23 → s.qual.button.pressTimer.isSome = true →
      (∀ n m, s.qual.button.pressTimer = some n → s.qual.button.overrideTimer = some m → n < m) →
      s.qual.button.latched = false →
      exec .pressTimerExpiry s = .next (State.latched { s with qual := { s.qual with button := { s.qual.button with
        pressTimer := none, latched := true } } } 0)) ∧
    (∀ n m, s.qual.button.pressTimer = some n → s.qual.button.overrideTimer = some m → m ≤ n →
      exec .pressTimerExpiry s = .next s) ∧
    (s.wake.armed.getLsbD 0 = false → s.up.own.length < 23 → s.qual.button.state.level = false →
      ticks s.qual.button.pressMinimum = 0 →
      exec .buttonPress s = .next (State.latched { s with qual := { s.qual with button := { s.qual.button with
        state := ⟨true, 0⟩, latched := true, overridden := false, pressTimer := none,
        overrideTimer := if ticks s.qual.button.override = 0 then none else some (ticks s.qual.button.override) } } } 0))

/-- The override timer expires with the button held and the press already latched. In SOFTOFF and FORCING only the record
changes; in WORKING under a REINIT the event is kept for the loading's end; in every other state FORCING begins and, with
FORCED-OFF empty, the safe levels are driven, every domain is OFF, the link DOWN, the platform SOFTOFF and armed, with a
REPORT FORCED, OVERRIDE and the interrupted sequence (R11, R118, R119, R78, R79, R82). No ORDER is in flight here. With a
FORCED-OFF whose Plan begins with an ORDER in a group of its own, that ORDER is sent in FORCING, with an empty Rising set and
the arm cleared (R80). In FORCING, whatever began it, the end of FORCED-OFF's last member, a DELAY, brings SOFTOFF, armed, and
the REPORT of the forcing cause, and no latched source wakes it (R81). -/
def Obligations.OverrideForcesThePartOff : Prop :=
  (∀ (s : State) (b : Button), s.qual.button.overrideTimer.isSome = true → s.qual.button.state.level = true →
    s.qual.button.latched = true → s.RailsGood → b = { s.qual.button with overridden := true, overrideTimer := none } →
    (s.eng.platform = .rest .softoff ∨ s.eng.platform = .forcing →
      exec .overrideTimerExpiry s = .next { s with qual := { s.qual with button := b } }) ∧
    (∀ l, s.eng.platform = .working → s.ldr.loading = some l → l.deferred = none →
      exec .overrideTimerExpiry s = .next { s with
        qual := { s.qual with button := b },
        ldr := { s.ldr with loading := some { l with deferred := some .override } } }) ∧
    (s.eng.platform ≠ .rest .softoff → s.eng.platform ≠ .forcing → s.ldr.loading = none → s.eng.orders = [] →
      (∀ m ∈ s.eng.running, m.plan.step.action.orderDomain = none) → s.eng.undo = none → (s.dirEntry 6).count = 0 →
      ∃ u, exec .overrideTimerExpiry s = .next u ∧ u.qual.button = b ∧
        u.eng.platform = .rest .softoff ∧ u.eng.plan = none ∧ u.eng.running = [] ∧ u.eng.undoStack = [] ∧
        u.eng.abortPending = none ∧ u.eng.rising = 0#12 ∧ u.eng.forcingCause = none ∧
        u.lines = { s.lines with levels := s.lines.safe } ∧ s.AllOffAfter u ∧ u.dom.linkUp = false ∧
        u.up.own = (if s.dom.linkUp then [] else s.up.own) ∧
        u.wake.arm = true ∧ u.wake.armed = s.armedFor .softoff ∧ u.wake.latch = s.wake.latch ∧
        u.qual.sleepCount = 0 ∧ u.qual.sleepCounting = true ∧ u.gate.permit = false ∧
        u.gate.hold = s.gate.hold.filter (fun r => r.up) ∧
        u.eng.lastReport = some ⟨(match s.eng.platform with
          | .entering t => some t.code | .unwinding t => some t.code | .waking x => some (3 + x.code)
          | .working => none | .rest _ => none | .forcing => some 6), .forced, .override, none, none, 0#12⟩) ∧
    (∀ (steps rest : List PlanStep) (q : PlanStep) (d : Domain) (target : OrdState) (rev : Bool) (a : Addr),
      s.eng.platform ≠ .rest .softoff → s.eng.platform ≠ .forcing → s.ldr.loading = none → s.eng.orders = [] →
      (∀ m ∈ s.eng.running, m.plan.step.action.orderDomain = none) → s.eng.undo = none →
      checkSequence s 6 = .ok steps → (steps.filter fun y => y.step.guard.holds 0#16 none) = q :: rest →
      q.step.action = .order d target rev → q.step.join = false → (s.config d).agent = some a → s.down.own.length < 24 →
      ∃ u, exec .overrideTimerExpiry s = .next u ∧ u.qual.button = b ∧
        u.eng.platform = .forcing ∧ u.eng.plan = some ⟨q :: rest, 1, (s.dirEntry 6).commit⟩ ∧ u.eng.rising = 0#12 ∧
        u.eng.orders = [⟨d, a, s.eng.tag, target, some q.position⟩] ∧ u.eng.tag = s.eng.tag + 1#4 ∧
        u.eng.undoStack = [] ∧ u.eng.abortPending = none ∧ u.eng.lastReport = s.eng.lastReport ∧
        u.eng.forcingCause = some ⟨.override, s.eng.platform.sequence, none⟩ ∧
        u.down = { s.down with
          own := s.down.own ++ [⟨a, 63#6, .order, s.eng.tag, false, [BitVec.ofNat 8 target.code]⟩] } ∧
        u.wake.arm = false ∧ u.wake.armed = 0#16 ∧ u.wake.latch = s.wake.latch ∧
        u.gate.permit = false ∧ u.gate.hold = s.gate.hold.filter (fun r => r.up) ∧ u.dom = s.dom ∧ u.lines = s.lines)) ∧
  (∀ (s : State) (m : Member) (cause : ForcingCause), s.eng.platform = .forcing → s.RunsLast m → m.timer.isSome = true →
      m.plan.step.action = .delay none → s.eng.orders = [] → s.RailsGood → s.eng.forcingCause = some cause →
      s.up.own.length < 23 →
      ∃ u unknown, exec (.delayExpiry m.plan.position) s = .next u ∧
        u.eng.platform = .rest .softoff ∧ u.eng.plan = none ∧ u.eng.running = [] ∧ u.eng.forcingCause = none ∧
        u.wake = { s.wake with arm := true, armed := s.armedFor .softoff } ∧
        u.qual = { s.qual with sleepCount := 0, sleepCounting := true } ∧ u.dom = s.dom ∧ u.lines = s.lines ∧
        u.gate = s.gate ∧ u.down = s.down ∧
        (∀ e : Domain, unknown.getLsbD e = decide (s.recorded e = .unknown)) ∧
        u.eng.lastReport = some ⟨cause.sequence, .forced, cause.cause, cause.failing, none, unknown⟩ ∧
        u.up = (if s.dom.linkUp then
          { s.up with own := s.up.own ++ [⟨0#6, 63#6, .report, 0#4, false,
              [optByte cause.sequence, 2#8, BitVec.ofNat 8 cause.cause.code, optByte cause.failing, 0xFF#8] ++
                bytes16 (unknown.setWidth 16)⟩] } else s.up))

/-- A seconds step raises the sleep-duration counter while it counts, to at most 16,777,215, then takes a Wake Timer that is
not 0 down by one; nothing else changes unless the count goes from 1 to 0, which latches source 1, here not armed and with
the Storm Monitor disabled (R120, R122, R123). That the expiry of the Wake Timer is that whole step is log entry 17, that it
leaves the state at any other count is log entry 1, and that a step commanded early counts as the divider's wrap is log entry
33. -/
def Obligations.SecondsStepsCount : Prop :=
  ∀ (s : State) (counted : State), s.RailsGood →
    counted = { s with qual := { s.qual with
      divider := 0, secondsDue := false, wakeTimer := s.qual.wakeTimer - 1,
      sleepCount := if s.qual.sleepCounting then min 16777215 (s.qual.sleepCount + 1) else s.qual.sleepCount } } →
    (s.qual.wakeTimer ≠ 1 → exec .secondsStep s = .next counted) ∧
    (s.qual.wakeTimer = 1 → s.wake.armed.getLsbD 1 = false → ticks s.wake.window = 0 → s.up.own.length < 23 →
      exec .secondsStep s = .next (counted.latched 1) ∧ exec .wakeTimerExpiry s = .next (counted.latched 1)) ∧
    (s.qual.wakeTimer ≠ 1 → exec .wakeTimerExpiry s = .next s)

/-- The expiry of the storm window sets the counts outside the Suppressed set to 0 and starts the window again (R106). A
latch event that takes an enabled source's count to the threshold suppresses it: it leaves the Armed set before the event
can be an armed latch, so no wake is accepted, and EVENT STORM follows EVENT SOURCE (R107, R108). That a count already past the
threshold suppresses too is log entry 29: R108 speaks of a count that rises to equal it. -/
def Obligations.StormsAreCountedAndSuppressed : Prop :=
  ∀ s : State,
    (s.wake.windowTimer.isSome = true → ∃ t, exec .stormWindowExpiry s = .next t ∧ t = { s with wake := t.wake } ∧
      t.wake = { s.wake with stormCount := t.wake.stormCount, windowTimer := t.wake.windowTimer } ∧
      (∀ src : Source, t.wake.stormCount[src] = if s.wake.suppressed.getLsbD src then s.wake.stormCount[src] else 0) ∧
      t.wake.windowTimer = if ticks s.wake.window = 0 then none else some (ticks s.wake.window)) ∧
    (∀ (k : WakeLine) (high : Bool) (src : Source), src.val = k.val + 2 → s.qual.lines[k].level ≠ high →
      s.qual.lines[k].mode = .both → s.RailsGood → ticks s.wake.window ≠ 0 → s.wake.enable.getLsbD src = true →
      s.wake.suppressed.getLsbD src = false → s.ldr.loading = none → s.wake.latch.getLsbD src = false →
      s.up.own.length < 22 →
      (s.wake.threshold ≤ s.wake.stormCount[src] + 1 → ∃ t, exec (.lineFilteredChange k high) s = .next t ∧
        t.wake = { s.wake with
          latch := s.wake.latch ||| BitVec.twoPow 16 src, generation := s.wake.generation + 1#16,
          suppressed := s.wake.suppressed ||| BitVec.twoPow 16 src, armed := s.wake.armed &&& ~~~ BitVec.twoPow 16 src,
          stormCount := s.wake.stormCount.set src s.wake.threshold } ∧
        t.up.own = (if s.dom.linkUp then s.up.own ++
          [⟨0#6, 63#6, .event, 0#4, false, [0#8, BitVec.ofNat 8 src.val] ++ bytes16 (s.wake.generation + 1#16)⟩,
           ⟨0#6, 63#6, .event, 0#4, false, [2#8, BitVec.ofNat 8 src.val]⟩] else s.up.own) ∧
        t.eng = s.eng ∧ t.dom = s.dom) ∧
      (s.wake.stormCount[src] + 1 < s.wake.threshold → s.wake.armed.getLsbD src = false →
        ∃ t, exec (.lineFilteredChange k high) s = .next t ∧
          t.wake = { s.wake with
            latch := s.wake.latch ||| BitVec.twoPow 16 src, generation := s.wake.generation + 1#16,
            stormCount := s.wake.stormCount.set src (s.wake.stormCount[src] + 1) } ∧
          t.eng = s.eng ∧ t.dom = s.dom))

/-! ## The Configuration Loader -/

/-- The image is judged by its marker, format and unit count and then by its CRC. A good header is followed by the rest; good
bytes by the records, a REINIT being accepted first: tables and settings emptied, Wake Latch, Suppressed set, storm counts,
Hold Queue and counters cleared, the Last Report absent. A REINIT whose image fails, by its first bytes or by its CRC, ends
with RESULT IMAGE-FAILED and keeps all it had; no forcing event is deferred and no mains loss was met (R175, R171, R180). -/
def Obligations.TheImageIsJudged : Prop :=
  ∀ (s : State) (l : Loading), s.ldr.loading = some l →
    (∀ b3 b4 : Byte, l.phase = .header → 1 ≤ (b3 ++ b4).toNat → (b3 ++ b4).toNat ≤ 4095 →
      exec (.imageHeaderRead 0xD5#8 0x1E#8 0x01#8 b3 b4) s = .next { s with ldr := { s.ldr with
        loading := some { l with phase := .body [0xD5#8, 0x1E#8, 0x01#8, b3, b4] } } }) ∧
    (∀ (b3 b4 : Byte) (area : List Byte), l.phase = .body [0xD5#8, 0x1E#8, 0x01#8, b3, b4] →
      area.length + 7 = ((b3 ++ b4).toNat + 1) * 4 →
      (l.byReinit = false →
        exec (.imageReadComplete (area ++ bytes16 (crc16 ([0xD5#8, 0x1E#8, 0x01#8, b3, b4] ++ area)))) s =
          .next { s with ldr := { s.ldr with loading := some { l with phase := .records area } } }) ∧
      (l.byReinit = true → ∃ t,
        exec (.imageReadComplete (area ++ bytes16 (crc16 ([0xD5#8, 0x1E#8, 0x01#8, b3, b4] ++ area)))) s = .next t ∧
        t.ldr = { s.ldr with loading := some { l with phase := .records area } } ∧
        (∀ i : Fin 128, t.eng.store[i] = StepRecord.empty) ∧ (∀ k : Fin 7, t.eng.directory[k] = DirEntry.empty) ∧
        (∀ d : Domain, t.dom.config[d] = DomainConfig.empty) ∧ t.dom.controller = 0 ∧ t.dom.status = s.dom.status ∧
        (∀ i : Fin 62, t.dom.agentMap[i] = none) ∧ (∀ i : Fin 24, t.matcher.table[i] = MatchEntry.empty) ∧
        t.wake.enable = 1#16 ∧ t.wake.maskStandby = 0#16 ∧ t.wake.maskHibernate = 0#16 ∧ t.wake.maskSoftoff = 0#16 ∧
        t.wake.latch = 0#16 ∧ t.wake.suppressed = 0#16 ∧ t.wake.generation = s.wake.generation ∧
        (∀ src : Source, t.wake.stormCount[src] = 0) ∧ t.wake.threshold = 1 ∧ t.wake.window = 0#8 ∧
        t.wake.windowTimer = none ∧ t.wake.context = s.wake.context ∧
        (∀ k : WakeLine, t.qual.lines[k].mode = .disabled ∧ t.qual.lines[k].filter = 0x00#8 ∧
          t.qual.lines[k].level = s.qual.lines[k].level) ∧
        t.qual.button = { s.qual.button with pressMinimum := 0x49#8, override := 0xE8#8 } ∧
        (l.mainsLost = false → t.mgmt.counters = ⟨0, 0, 0, 0, 0, 0⟩ ∧ t.dom.linkUp = s.dom.linkUp) ∧
        t.qual.wakeTimer = s.qual.wakeTimer ∧ t.qual.afterLoss = .stayOff ∧ t.lines = { s.lines with safe := 0#16 } ∧
        t.gate.hold = [] ∧ t.mgmt.retained = s.mgmt.retained ∧ t.eng.lastReport = none ∧
        t.eng.platform = s.eng.platform ∧ t.eng.tag = s.eng.tag)) ∧
    (∀ (c : Instr) (tag : Tag), l.byReinit = true → l.mainsLost = false → l.deferred = none → s.mgmt.serving = some tag → s.RailsGood →
      s.dom.linkUp = decide (s.recorded s.dom.controller = .on) →
      s.dom.linkUp = true → s.up.own.length < 24 →
      ((∃ b0 b1 b2 b3 b4 : Byte, l.phase = .header ∧ c = .imageHeaderRead b0 b1 b2 b3 b4 ∧
          (b0 ≠ 0xD5#8 ∨ b1 ≠ 0x1E#8 ∨ b2 ≠ 0x01#8 ∨ (b3 ++ b4).toNat = 0 ∨ 4095 < (b3 ++ b4).toNat)) ∨
        (∃ (b3 b4 : Byte) (area : List Byte) (crc : BitVec 16), l.phase = .body [0xD5#8, 0x1E#8, 0x01#8, b3, b4] ∧
          area.length + 7 = ((b3 ++ b4).toNat + 1) * 4 ∧ crc ≠ crc16 ([0xD5#8, 0x1E#8, 0x01#8, b3, b4] ++ area) ∧
          c = .imageReadComplete (area ++ bytes16 crc))) →
      exec c s = .next { s with
        ldr := { s.ldr with loading := none }, mgmt := { s.mgmt with serving := none },
        up := { s.up with own := s.up.own ++ [⟨0#6, 63#6, .result, tag, false, [9#8]⟩] } })

/-- The records of the image are applied in order as SETs, padding zeros before a record skipped; the loading ends when the
last byte has been applied. A power-on loading ends LOADED, the Armed set computed for SOFTOFF and the window started,
under STAY-OFF in SOFTOFF still. A REINIT's loading ends LOADED with the window started and RESULT OK; an override deferred to
its end is taken then, here with FORCED-OFF empty: the safe levels just loaded are driven, every domain is OFF, the link DOWN
and no RESULT is sent. Shown for records of the safe levels and of the button settings (R176, R177, R179, R180). That one
command skips the padding, applies the record after it and ends the loading at the last byte is log entry 18. -/
def Obligations.LoaderRecordsAreApplied : Prop :=
  ∀ (s : State) (l : Loading) (zeros : Nat), s.ldr.loading = some l →
    (∀ (x : Levels) (b : Byte) (rest : List Byte),
      l.phase = .records (List.replicate zeros 0#8 ++ 3#8 :: 0x0E#8 :: bytes16 x ++ b :: rest) →
      exec .loaderRecordApply s = .next { s with
        lines := { s.lines with safe := x },
        ldr := { s.ldr with loading := some { l with phase := .records (b :: rest) } } }) ∧
    (∀ (p o b : Byte) (rest : List Byte),
      l.phase = .records (List.replicate zeros 0#8 ++ [4#8, 0x0C#8, p, o, 0#8] ++ b :: rest) →
      exec .loaderRecordApply s = .next { s with
        qual := { s.qual with button := { s.qual.button with pressMinimum := p, override := o }, afterLoss := .stayOff },
        ldr := { s.ldr with loading := some { l with phase := .records (b :: rest) } } }) ∧
    (∀ x : Levels, l.phase = .records (List.replicate zeros 0#8 ++ 3#8 :: 0x0E#8 :: bytes16 x) → l.byReinit = false →
      s.qual.afterLoss = .stayOff → s.RailsGood → s.dom.linkUp = decide (s.recorded s.dom.controller = .on) →
      exec .loaderRecordApply s = .next { s with
        lines := { s.lines with safe := x },
        ldr := ⟨none, .loaded⟩,
        mgmt := { s.mgmt with serving := none },
        wake := { s.wake with
          armed := s.armedFor .softoff,
          windowTimer := if ticks s.wake.window = 0 then none else some (ticks s.wake.window) } }) ∧
    (∀ (x : Levels) (tag : Tag), l.phase = .records (List.replicate zeros 0#8 ++ 3#8 :: 0x0E#8 :: bytes16 x) →
      l.byReinit = true → l.mainsLost = false → s.mgmt.serving = some tag → s.RailsGood →
      s.recorded s.dom.controller = .on → s.dom.linkUp = true →
      (l.deferred = none → s.up.own.length < 24 → exec .loaderRecordApply s = .next { s with
        lines := { s.lines with safe := x },
        ldr := ⟨none, .loaded⟩,
        mgmt := { s.mgmt with serving := none },
        up := { s.up with own := s.up.own ++ [⟨0#6, 63#6, .result, tag, false, [0#8]⟩] },
        wake := { s.wake with
          windowTimer := if ticks s.wake.window = 0 then none else some (ticks s.wake.window) } }) ∧
      (l.deferred = some .override → s.eng.platform = .working → s.eng.running = [] → s.eng.undo = none →
        (s.dirEntry 6).count = 0 →
        ∃ u, exec .loaderRecordApply s = .next u ∧ u.ldr = ⟨none, .loaded⟩ ∧ u.mgmt.serving = none ∧
          u.eng.platform = .rest .softoff ∧ u.lines = ⟨x, x⟩ ∧ s.AllOffAfter u ∧ u.dom.linkUp = false ∧ u.up.own = [] ∧
          u.wake.arm = true ∧ u.wake.armed = s.armedFor .softoff ∧
          u.eng.lastReport = some ⟨none, .forced, .override, none, none, 0#12⟩))

/-- The fallback tables: domain 0 and the OFF-WAKE and FORCED-OFF sequences of R178 over emptied tables. They are installed
at power-on where the image's first bytes, its CRC or a record is refused, with the loader status that says which, and the
part is then in SOFTOFF, armed for the power button (R175, R177, R178, R179). Every domain is OFF and the link DOWN, as
power-on leaves them. A REINIT whose image has a refused record installs them too: the status is FALLBACK-RECORD, the platform
and the recorded states stay, the link follows domain 0, and RESULT OK is sent if it is UP (R180). PG0 is ASSERTED there. -/
def Obligations.FallbackTablesAreInstalled : Prop :=
  (∀ (s : State) (l : Loading) (c : Instr) (status : LoaderStatus), s.ldr.loading = some l → l.byReinit = false →
    (∀ d, s.recorded d = .off) → s.dom.linkUp = false → s.eng.platform = .rest .softoff → s.wake.suppressed = 0#16 →
    ((∃ b0 b1 b2 b3 b4 : Byte, l.phase = .header ∧ c = .imageHeaderRead b0 b1 b2 b3 b4 ∧ status = .fallbackNoImage ∧
        (b0 ≠ 0xD5#8 ∨ b1 ≠ 0x1E#8 ∨ b2 ≠ 0x01#8 ∨ (b3 ++ b4).toNat = 0 ∨ 4095 < (b3 ++ b4).toNat)) ∨
      (∃ (b3 b4 : Byte) (area : List Byte) (crc : BitVec 16), l.phase = .body [0xD5#8, 0x1E#8, 0x01#8, b3, b4] ∧
        area.length + 7 = ((b3 ++ b4).toNat + 1) * 4 ∧ crc ≠ crc16 ([0xD5#8, 0x1E#8, 0x01#8, b3, b4] ++ area) ∧
        c = .imageReadComplete (area ++ bytes16 crc) ∧ status = .fallbackCrc) ∨
      (∃ (len selector : Byte) (rest : List Byte), l.phase = .records (len :: selector :: rest) ∧ 1 ≤ len.toNat ∧
        (32 < len.toNat ∨ rest.length + 1 < len.toNat ∨ selector ∈ [0x0D#8, 0x14#8, 0x16#8, 0x04#8, 0x20#8]) ∧
        c = .loaderRecordApply ∧ status = .fallbackRecord)) →
    ∃ t, exec c s = .next t ∧ t.ldr = ⟨none, status⟩ ∧
      t.dom.config[0] = ⟨none, some 0, true, false, false, .report, true, 0x00#8⟩ ∧ t.dom.controller = 0 ∧
      (∀ d : Domain, d ≠ 0 → t.dom.config[d] = DomainConfig.empty) ∧ (∀ i : Fin 62, t.dom.agentMap[i] = none) ∧
      t.eng.directory[5] = ⟨0, 4, 0⟩ ∧ t.eng.directory[6] = ⟨4, 2, 0⟩ ∧
      (∀ k : Fin 7, k.val < 5 → t.eng.directory[k] = DirEntry.empty) ∧
      t.eng.store[0] = ⟨.line none 0 true false, false, 0x00#8, .continue, .always⟩ ∧
      t.eng.store[1] = ⟨.awaitGood 0 true (some .on), false, 0xE2#8, .abort, .always⟩ ∧
      t.eng.store[2] = ⟨.delay none, false, 0x8D#8, .continue, .always⟩ ∧
      t.eng.store[3] = ⟨.line none 3 true false, false, 0x00#8, .continue, .always⟩ ∧
      t.eng.store[4] = ⟨.line none 3 false false, false, 0x00#8, .continue, .always⟩ ∧
      t.eng.store[5] = ⟨.line (some (0, some .off)) 0 false false, false, 0x00#8, .continue, .always⟩ ∧
      (∀ i : Fin 128, 6 ≤ i.val → t.eng.store[i] = StepRecord.empty) ∧
      (∀ i : Fin 24, t.matcher.table[i] = MatchEntry.empty) ∧ t.wake.enable = 1#16 ∧ t.wake.armed = 1#16 ∧
      t.lines = { s.lines with safe := 0#16 } ∧ t.qual.afterLoss = .stayOff ∧ t.eng.platform = .rest .softoff ∧
      t.dom.status = s.dom.status ∧ t.dom.linkUp = false ∧ t.mgmt.serving = none) ∧
  (∀ (s : State) (l : Loading) (tag : Tag) (len selector : Byte) (rest : List Byte), s.ldr.loading = some l →
    l.byReinit = true → l.mainsLost = false → l.deferred = none → s.mgmt.serving = some tag → s.dom.linkUp = true →
    s.up.own.length < 24 → s.pgLevel 0 = true →
    l.phase = .records (len :: selector :: rest) → 1 ≤ len.toNat →
    32 < len.toNat ∨ rest.length + 1 < len.toNat ∨ selector ∈ [0x0D#8, 0x14#8, 0x16#8, 0x04#8, 0x20#8] →
    ∃ t, exec .loaderRecordApply s = .next t ∧ t.ldr = ⟨none, .fallbackRecord⟩ ∧ t.mgmt.serving = none ∧
      t.dom.config[0] = ⟨none, some 0, true, false, false, .report, true, 0x00#8⟩ ∧ t.dom.controller = 0 ∧
      (∀ d : Domain, d ≠ 0 → t.dom.config[d] = DomainConfig.empty) ∧ (∀ i : Fin 62, t.dom.agentMap[i] = none) ∧
      t.eng.directory[5] = ⟨0, 4, 0⟩ ∧ t.eng.directory[6] = ⟨4, 2, 0⟩ ∧
      (∀ k : Fin 7, k.val < 5 → t.eng.directory[k] = DirEntry.empty) ∧ t.wake.enable = 1#16 ∧ t.wake.window = 0#8 ∧
      t.wake.windowTimer = none ∧ t.wake.armed = s.wake.armed ∧ t.lines = { s.lines with safe := 0#16 } ∧
      t.eng.platform = s.eng.platform ∧ t.dom.status = s.dom.status ∧
      (s.recorded 0 = .on → t.dom.linkUp = true ∧
        t.up = { s.up with own := s.up.own ++ [⟨0#6, 63#6, .result, tag, false, [0#8]⟩] }) ∧
      (s.recorded 0 ≠ .on → t.dom.linkUp = false ∧ t.up = { s.up with own := [], output := [], forwarded := none }))

/-! ## Layouts, frames and laws of every step -/

/-- The layouts of section 10.10 lose nothing: the bytes of every step record, of every directory entry within R23, of every
domain configuration record with a valid agent and of every match entry within R125 are read back as the record, a match
entry with its run count at 0 (R126, R173). -/
def Obligations.RecordBytesReadBack : Prop :=
  (∀ r : StepRecord, stepOfBytes (bytesOfStep r) = some r) ∧
  (∀ e : DirEntry, e.first ≤ 127 → e.count ≤ 32 → e.first + e.count ≤ 128 → e.commit ≤ e.count →
    dirOfBytes (bytesOfDir e) = some e) ∧
  (∀ (c : DomainConfig) (b : Bool), (∀ a, c.agent = some a → a ≠ 0#6 ∧ a ≠ 63#6) →
    domainOfBytes (bytesOfDomain c b) = some ⟨c, b⟩) ∧
  (∀ e : MatchEntry, (∀ a, e.agent = some a → a ≠ 0#6 ∧ a ≠ 63#6) →
    (∀ k, e.kind = some k → k = .note ∨ k = .ask ∨ k = .alert) → e.lsb ≤ e.msb → 1 ≤ e.qualifier → e.qualifier ≤ 8 →
    (e.action = .wake ∨ e.action = .wakeKeep → 10 ≤ e.source.toNat ∧ e.source.toNat ≤ 15) →
    matchOfBytes (bytesOfMatch e) = some { e with run := 0 })

/-- The frame of the Engine's own events: the expiry of a step timer, of an undo's timer or of a blanking timer leaves alone
everything but status records, link state, the Engine's running state, the Wake Unit's sets, arm, context and counts, the
sleep-duration counter, the Hold Queue, the part's own frames, the enable outputs, DISCARDED and a deferred event: tables,
settings, qualifiers, input FIFOs, the other counters, the Retained Resume Area and the queue of commands stay. -/
def Obligations.EngineTimersLeaveTablesAndSettings : Prop :=
  ∀ (s : State) (p : Nat) (d : Domain) (c : Instr),
    c ∈ [Instr.orderTimeout p, .awaitGoodTimeout p, .lineSettleExpiry p, .delayExpiry p, .undoOrderTimeout,
      .undoLineSettleExpiry, .blankingExpiry d] →
    ∃ t, exec c s = .next t ∧ t.kept = s.kept

/-- Every step keeps the queues of messages and frames within their capacities and the counters within their ranges, and source
0 in the Wake Enable set, out of the Entry Masks and the Suppressed set with a storm count of 0 (R96, R97, R106, R107, R120,
R121, R123, R143, R162, R165, R170). The bounds of the Engine's own tables are EveryStepKeepsTheEngineTables. -/
def Obligations.EveryStepKeepsCapacitiesAndSourceZero : Prop :=
  ∀ s t : State, step s = .next t → s.Bounded → s.SourceZeroHeld → t.Bounded ∧ t.SourceZeroHeld

/-- Every step keeps the Wake Arm set in the sleep states alone, the Armed set within the one computed for the state in
ENTERING and in a sleep state and empty elsewhere, and a loading to WORKING and SOFTOFF with nothing armed (R98, R100, R11,
R181). -/
def Obligations.EveryStepKeepsTheArming : Prop :=
  ∀ s t : State, step s = .next t → s.ArmedRight → t.ArmedRight

/-- Every step keeps the Engine's tables: with no transition in progress no Plan, no members, no orders and an empty Rising set
(R2, R40); at most four members and four orders, on positions and agents of their own, each order that of a running ORDER
or of the undo in flight (R36, R47, R50, R73); at most 32 undo records, and none outside ENTERING and UNWINDING (R71). -/
def Obligations.EveryStepKeepsTheEngineTables : Prop :=
  ∀ s t : State, step s = .next t → s.ArmedRight → s.EngineRight → t.EngineRight

/-- Every step keeps the upstream link state equal to "the controller domain is recorded ON", or held UP while a REINIT
loads, and nothing waiting to be sent on a link that is DOWN (R19, R20, R165, R181). -/
def Obligations.EveryStepKeepsTheLinkState : Prop :=
  ∀ s t : State, step s = .next t → s.LinkRight → s.QuietWhenDown → s.ArmedRight → t.LinkRight ∧ t.QuietWhenDown

/-- The state right after power-on reset meets the laws that every step keeps. -/
def Obligations.ResetMeetsTheLaws : Prop :=
  State.reset.Bounded ∧ State.reset.SourceZeroHeld ∧ State.reset.ArmedRight ∧ State.reset.LinkRight ∧
  State.reset.QuietWhenDown ∧ State.reset.EngineRight ∧ Memory.wf State.reset.mgmt.retained = true
end

