-- ==== Sys2Proof/Laws/State.lean ====
section
/-! SUPPORT. What each update of a block of State leaves in each field: every proof reads an update through these. -/

namespace Sys2Proof.Machine

variable (s : State)

/-! ## withDom -/

@[simp] theorem withDom_dom (x : DomainTable) : (s.withDom x).dom = x := rfl
@[simp] theorem withDom_eng (x : DomainTable) : (s.withDom x).eng = s.eng := rfl
@[simp] theorem withDom_wake (x : DomainTable) : (s.withDom x).wake = s.wake := rfl
@[simp] theorem withDom_qual (x : DomainTable) : (s.withDom x).qual = s.qual := rfl
@[simp] theorem withDom_mon (x : DomainTable) : (s.withDom x).mon = s.mon := rfl
@[simp] theorem withDom_matcher (x : DomainTable) : (s.withDom x).matcher = s.matcher := rfl
@[simp] theorem withDom_gate (x : DomainTable) : (s.withDom x).gate = s.gate := rfl
@[simp] theorem withDom_up (x : DomainTable) : (s.withDom x).up = s.up := rfl
@[simp] theorem withDom_down (x : DomainTable) : (s.withDom x).down = s.down := rfl
@[simp] theorem withDom_lines (x : DomainTable) : (s.withDom x).lines = s.lines := rfl
@[simp] theorem withDom_mgmt (x : DomainTable) : (s.withDom x).mgmt = s.mgmt := rfl
@[simp] theorem withDom_ldr (x : DomainTable) : (s.withDom x).ldr = s.ldr := rfl
@[simp] theorem withDom_pins (x : DomainTable) : (s.withDom x).pins = s.pins := rfl
@[simp] theorem withDom_porEdges (x : DomainTable) : (s.withDom x).porEdges = s.porEdges := rfl
@[simp] theorem withDom_draws (x : DomainTable) : (s.withDom x).draws = s.draws := rfl
@[simp] theorem withDom_pending (x : DomainTable) : (s.withDom x).pending = s.pending := rfl

/-! ## withEng -/

@[simp] theorem withEng_dom (x : Engine) : (s.withEng x).dom = s.dom := rfl
@[simp] theorem withEng_eng (x : Engine) : (s.withEng x).eng = x := rfl
@[simp] theorem withEng_wake (x : Engine) : (s.withEng x).wake = s.wake := rfl
@[simp] theorem withEng_qual (x : Engine) : (s.withEng x).qual = s.qual := rfl
@[simp] theorem withEng_mon (x : Engine) : (s.withEng x).mon = s.mon := rfl
@[simp] theorem withEng_matcher (x : Engine) : (s.withEng x).matcher = s.matcher := rfl
@[simp] theorem withEng_gate (x : Engine) : (s.withEng x).gate = s.gate := rfl
@[simp] theorem withEng_up (x : Engine) : (s.withEng x).up = s.up := rfl
@[simp] theorem withEng_down (x : Engine) : (s.withEng x).down = s.down := rfl
@[simp] theorem withEng_lines (x : Engine) : (s.withEng x).lines = s.lines := rfl
@[simp] theorem withEng_mgmt (x : Engine) : (s.withEng x).mgmt = s.mgmt := rfl
@[simp] theorem withEng_ldr (x : Engine) : (s.withEng x).ldr = s.ldr := rfl
@[simp] theorem withEng_pins (x : Engine) : (s.withEng x).pins = s.pins := rfl
@[simp] theorem withEng_porEdges (x : Engine) : (s.withEng x).porEdges = s.porEdges := rfl
@[simp] theorem withEng_draws (x : Engine) : (s.withEng x).draws = s.draws := rfl
@[simp] theorem withEng_pending (x : Engine) : (s.withEng x).pending = s.pending := rfl

/-! ## withWake -/

@[simp] theorem withWake_dom (x : WakeUnit) : (s.withWake x).dom = s.dom := rfl
@[simp] theorem withWake_eng (x : WakeUnit) : (s.withWake x).eng = s.eng := rfl
@[simp] theorem withWake_wake (x : WakeUnit) : (s.withWake x).wake = x := rfl
@[simp] theorem withWake_qual (x : WakeUnit) : (s.withWake x).qual = s.qual := rfl
@[simp] theorem withWake_mon (x : WakeUnit) : (s.withWake x).mon = s.mon := rfl
@[simp] theorem withWake_matcher (x : WakeUnit) : (s.withWake x).matcher = s.matcher := rfl
@[simp] theorem withWake_gate (x : WakeUnit) : (s.withWake x).gate = s.gate := rfl
@[simp] theorem withWake_up (x : WakeUnit) : (s.withWake x).up = s.up := rfl
@[simp] theorem withWake_down (x : WakeUnit) : (s.withWake x).down = s.down := rfl
@[simp] theorem withWake_lines (x : WakeUnit) : (s.withWake x).lines = s.lines := rfl
@[simp] theorem withWake_mgmt (x : WakeUnit) : (s.withWake x).mgmt = s.mgmt := rfl
@[simp] theorem withWake_ldr (x : WakeUnit) : (s.withWake x).ldr = s.ldr := rfl
@[simp] theorem withWake_pins (x : WakeUnit) : (s.withWake x).pins = s.pins := rfl
@[simp] theorem withWake_porEdges (x : WakeUnit) : (s.withWake x).porEdges = s.porEdges := rfl
@[simp] theorem withWake_draws (x : WakeUnit) : (s.withWake x).draws = s.draws := rfl
@[simp] theorem withWake_pending (x : WakeUnit) : (s.withWake x).pending = s.pending := rfl

/-! ## withQual -/

@[simp] theorem withQual_dom (x : Qualifiers) : (s.withQual x).dom = s.dom := rfl
@[simp] theorem withQual_eng (x : Qualifiers) : (s.withQual x).eng = s.eng := rfl
@[simp] theorem withQual_wake (x : Qualifiers) : (s.withQual x).wake = s.wake := rfl
@[simp] theorem withQual_qual (x : Qualifiers) : (s.withQual x).qual = x := rfl
@[simp] theorem withQual_mon (x : Qualifiers) : (s.withQual x).mon = s.mon := rfl
@[simp] theorem withQual_matcher (x : Qualifiers) : (s.withQual x).matcher = s.matcher := rfl
@[simp] theorem withQual_gate (x : Qualifiers) : (s.withQual x).gate = s.gate := rfl
@[simp] theorem withQual_up (x : Qualifiers) : (s.withQual x).up = s.up := rfl
@[simp] theorem withQual_down (x : Qualifiers) : (s.withQual x).down = s.down := rfl
@[simp] theorem withQual_lines (x : Qualifiers) : (s.withQual x).lines = s.lines := rfl
@[simp] theorem withQual_mgmt (x : Qualifiers) : (s.withQual x).mgmt = s.mgmt := rfl
@[simp] theorem withQual_ldr (x : Qualifiers) : (s.withQual x).ldr = s.ldr := rfl
@[simp] theorem withQual_pins (x : Qualifiers) : (s.withQual x).pins = s.pins := rfl
@[simp] theorem withQual_porEdges (x : Qualifiers) : (s.withQual x).porEdges = s.porEdges := rfl
@[simp] theorem withQual_draws (x : Qualifiers) : (s.withQual x).draws = s.draws := rfl
@[simp] theorem withQual_pending (x : Qualifiers) : (s.withQual x).pending = s.pending := rfl

/-! ## withMon -/

@[simp] theorem withMon_dom (x : RailMonitor) : (s.withMon x).dom = s.dom := rfl
@[simp] theorem withMon_eng (x : RailMonitor) : (s.withMon x).eng = s.eng := rfl
@[simp] theorem withMon_wake (x : RailMonitor) : (s.withMon x).wake = s.wake := rfl
@[simp] theorem withMon_qual (x : RailMonitor) : (s.withMon x).qual = s.qual := rfl
@[simp] theorem withMon_mon (x : RailMonitor) : (s.withMon x).mon = x := rfl
@[simp] theorem withMon_matcher (x : RailMonitor) : (s.withMon x).matcher = s.matcher := rfl
@[simp] theorem withMon_gate (x : RailMonitor) : (s.withMon x).gate = s.gate := rfl
@[simp] theorem withMon_up (x : RailMonitor) : (s.withMon x).up = s.up := rfl
@[simp] theorem withMon_down (x : RailMonitor) : (s.withMon x).down = s.down := rfl
@[simp] theorem withMon_lines (x : RailMonitor) : (s.withMon x).lines = s.lines := rfl
@[simp] theorem withMon_mgmt (x : RailMonitor) : (s.withMon x).mgmt = s.mgmt := rfl
@[simp] theorem withMon_ldr (x : RailMonitor) : (s.withMon x).ldr = s.ldr := rfl
@[simp] theorem withMon_pins (x : RailMonitor) : (s.withMon x).pins = s.pins := rfl
@[simp] theorem withMon_porEdges (x : RailMonitor) : (s.withMon x).porEdges = s.porEdges := rfl
@[simp] theorem withMon_draws (x : RailMonitor) : (s.withMon x).draws = s.draws := rfl
@[simp] theorem withMon_pending (x : RailMonitor) : (s.withMon x).pending = s.pending := rfl

/-! ## withMatcher -/

@[simp] theorem withMatcher_dom (x : Matcher) : (s.withMatcher x).dom = s.dom := rfl
@[simp] theorem withMatcher_eng (x : Matcher) : (s.withMatcher x).eng = s.eng := rfl
@[simp] theorem withMatcher_wake (x : Matcher) : (s.withMatcher x).wake = s.wake := rfl
@[simp] theorem withMatcher_qual (x : Matcher) : (s.withMatcher x).qual = s.qual := rfl
@[simp] theorem withMatcher_mon (x : Matcher) : (s.withMatcher x).mon = s.mon := rfl
@[simp] theorem withMatcher_matcher (x : Matcher) : (s.withMatcher x).matcher = x := rfl
@[simp] theorem withMatcher_gate (x : Matcher) : (s.withMatcher x).gate = s.gate := rfl
@[simp] theorem withMatcher_up (x : Matcher) : (s.withMatcher x).up = s.up := rfl
@[simp] theorem withMatcher_down (x : Matcher) : (s.withMatcher x).down = s.down := rfl
@[simp] theorem withMatcher_lines (x : Matcher) : (s.withMatcher x).lines = s.lines := rfl
@[simp] theorem withMatcher_mgmt (x : Matcher) : (s.withMatcher x).mgmt = s.mgmt := rfl
@[simp] theorem withMatcher_ldr (x : Matcher) : (s.withMatcher x).ldr = s.ldr := rfl
@[simp] theorem withMatcher_pins (x : Matcher) : (s.withMatcher x).pins = s.pins := rfl
@[simp] theorem withMatcher_porEdges (x : Matcher) : (s.withMatcher x).porEdges = s.porEdges := rfl
@[simp] theorem withMatcher_draws (x : Matcher) : (s.withMatcher x).draws = s.draws := rfl
@[simp] theorem withMatcher_pending (x : Matcher) : (s.withMatcher x).pending = s.pending := rfl

/-! ## withGate -/

@[simp] theorem withGate_dom (x : Gate) : (s.withGate x).dom = s.dom := rfl
@[simp] theorem withGate_eng (x : Gate) : (s.withGate x).eng = s.eng := rfl
@[simp] theorem withGate_wake (x : Gate) : (s.withGate x).wake = s.wake := rfl
@[simp] theorem withGate_qual (x : Gate) : (s.withGate x).qual = s.qual := rfl
@[simp] theorem withGate_mon (x : Gate) : (s.withGate x).mon = s.mon := rfl
@[simp] theorem withGate_matcher (x : Gate) : (s.withGate x).matcher = s.matcher := rfl
@[simp] theorem withGate_gate (x : Gate) : (s.withGate x).gate = x := rfl
@[simp] theorem withGate_up (x : Gate) : (s.withGate x).up = s.up := rfl
@[simp] theorem withGate_down (x : Gate) : (s.withGate x).down = s.down := rfl
@[simp] theorem withGate_lines (x : Gate) : (s.withGate x).lines = s.lines := rfl
@[simp] theorem withGate_mgmt (x : Gate) : (s.withGate x).mgmt = s.mgmt := rfl
@[simp] theorem withGate_ldr (x : Gate) : (s.withGate x).ldr = s.ldr := rfl
@[simp] theorem withGate_pins (x : Gate) : (s.withGate x).pins = s.pins := rfl
@[simp] theorem withGate_porEdges (x : Gate) : (s.withGate x).porEdges = s.porEdges := rfl
@[simp] theorem withGate_draws (x : Gate) : (s.withGate x).draws = s.draws := rfl
@[simp] theorem withGate_pending (x : Gate) : (s.withGate x).pending = s.pending := rfl

/-! ## withUp -/

@[simp] theorem withUp_dom (x : Port) : (s.withUp x).dom = s.dom := rfl
@[simp] theorem withUp_eng (x : Port) : (s.withUp x).eng = s.eng := rfl
@[simp] theorem withUp_wake (x : Port) : (s.withUp x).wake = s.wake := rfl
@[simp] theorem withUp_qual (x : Port) : (s.withUp x).qual = s.qual := rfl
@[simp] theorem withUp_mon (x : Port) : (s.withUp x).mon = s.mon := rfl
@[simp] theorem withUp_matcher (x : Port) : (s.withUp x).matcher = s.matcher := rfl
@[simp] theorem withUp_gate (x : Port) : (s.withUp x).gate = s.gate := rfl
@[simp] theorem withUp_up (x : Port) : (s.withUp x).up = x := rfl
@[simp] theorem withUp_down (x : Port) : (s.withUp x).down = s.down := rfl
@[simp] theorem withUp_lines (x : Port) : (s.withUp x).lines = s.lines := rfl
@[simp] theorem withUp_mgmt (x : Port) : (s.withUp x).mgmt = s.mgmt := rfl
@[simp] theorem withUp_ldr (x : Port) : (s.withUp x).ldr = s.ldr := rfl
@[simp] theorem withUp_pins (x : Port) : (s.withUp x).pins = s.pins := rfl
@[simp] theorem withUp_porEdges (x : Port) : (s.withUp x).porEdges = s.porEdges := rfl
@[simp] theorem withUp_draws (x : Port) : (s.withUp x).draws = s.draws := rfl
@[simp] theorem withUp_pending (x : Port) : (s.withUp x).pending = s.pending := rfl

/-! ## withDown -/

@[simp] theorem withDown_dom (x : Port) : (s.withDown x).dom = s.dom := rfl
@[simp] theorem withDown_eng (x : Port) : (s.withDown x).eng = s.eng := rfl
@[simp] theorem withDown_wake (x : Port) : (s.withDown x).wake = s.wake := rfl
@[simp] theorem withDown_qual (x : Port) : (s.withDown x).qual = s.qual := rfl
@[simp] theorem withDown_mon (x : Port) : (s.withDown x).mon = s.mon := rfl
@[simp] theorem withDown_matcher (x : Port) : (s.withDown x).matcher = s.matcher := rfl
@[simp] theorem withDown_gate (x : Port) : (s.withDown x).gate = s.gate := rfl
@[simp] theorem withDown_up (x : Port) : (s.withDown x).up = s.up := rfl
@[simp] theorem withDown_down (x : Port) : (s.withDown x).down = x := rfl
@[simp] theorem withDown_lines (x : Port) : (s.withDown x).lines = s.lines := rfl
@[simp] theorem withDown_mgmt (x : Port) : (s.withDown x).mgmt = s.mgmt := rfl
@[simp] theorem withDown_ldr (x : Port) : (s.withDown x).ldr = s.ldr := rfl
@[simp] theorem withDown_pins (x : Port) : (s.withDown x).pins = s.pins := rfl
@[simp] theorem withDown_porEdges (x : Port) : (s.withDown x).porEdges = s.porEdges := rfl
@[simp] theorem withDown_draws (x : Port) : (s.withDown x).draws = s.draws := rfl
@[simp] theorem withDown_pending (x : Port) : (s.withDown x).pending = s.pending := rfl

/-! ## withLines -/

@[simp] theorem withLines_dom (x : LineDriver) : (s.withLines x).dom = s.dom := rfl
@[simp] theorem withLines_eng (x : LineDriver) : (s.withLines x).eng = s.eng := rfl
@[simp] theorem withLines_wake (x : LineDriver) : (s.withLines x).wake = s.wake := rfl
@[simp] theorem withLines_qual (x : LineDriver) : (s.withLines x).qual = s.qual := rfl
@[simp] theorem withLines_mon (x : LineDriver) : (s.withLines x).mon = s.mon := rfl
@[simp] theorem withLines_matcher (x : LineDriver) : (s.withLines x).matcher = s.matcher := rfl
@[simp] theorem withLines_gate (x : LineDriver) : (s.withLines x).gate = s.gate := rfl
@[simp] theorem withLines_up (x : LineDriver) : (s.withLines x).up = s.up := rfl
@[simp] theorem withLines_down (x : LineDriver) : (s.withLines x).down = s.down := rfl
@[simp] theorem withLines_lines (x : LineDriver) : (s.withLines x).lines = x := rfl
@[simp] theorem withLines_mgmt (x : LineDriver) : (s.withLines x).mgmt = s.mgmt := rfl
@[simp] theorem withLines_ldr (x : LineDriver) : (s.withLines x).ldr = s.ldr := rfl
@[simp] theorem withLines_pins (x : LineDriver) : (s.withLines x).pins = s.pins := rfl
@[simp] theorem withLines_porEdges (x : LineDriver) : (s.withLines x).porEdges = s.porEdges := rfl
@[simp] theorem withLines_draws (x : LineDriver) : (s.withLines x).draws = s.draws := rfl
@[simp] theorem withLines_pending (x : LineDriver) : (s.withLines x).pending = s.pending := rfl

/-! ## withMgmt -/

@[simp] theorem withMgmt_dom (x : Management) : (s.withMgmt x).dom = s.dom := rfl
@[simp] theorem withMgmt_eng (x : Management) : (s.withMgmt x).eng = s.eng := rfl
@[simp] theorem withMgmt_wake (x : Management) : (s.withMgmt x).wake = s.wake := rfl
@[simp] theorem withMgmt_qual (x : Management) : (s.withMgmt x).qual = s.qual := rfl
@[simp] theorem withMgmt_mon (x : Management) : (s.withMgmt x).mon = s.mon := rfl
@[simp] theorem withMgmt_matcher (x : Management) : (s.withMgmt x).matcher = s.matcher := rfl
@[simp] theorem withMgmt_gate (x : Management) : (s.withMgmt x).gate = s.gate := rfl
@[simp] theorem withMgmt_up (x : Management) : (s.withMgmt x).up = s.up := rfl
@[simp] theorem withMgmt_down (x : Management) : (s.withMgmt x).down = s.down := rfl
@[simp] theorem withMgmt_lines (x : Management) : (s.withMgmt x).lines = s.lines := rfl
@[simp] theorem withMgmt_mgmt (x : Management) : (s.withMgmt x).mgmt = x := rfl
@[simp] theorem withMgmt_ldr (x : Management) : (s.withMgmt x).ldr = s.ldr := rfl
@[simp] theorem withMgmt_pins (x : Management) : (s.withMgmt x).pins = s.pins := rfl
@[simp] theorem withMgmt_porEdges (x : Management) : (s.withMgmt x).porEdges = s.porEdges := rfl
@[simp] theorem withMgmt_draws (x : Management) : (s.withMgmt x).draws = s.draws := rfl
@[simp] theorem withMgmt_pending (x : Management) : (s.withMgmt x).pending = s.pending := rfl

/-! ## withLdr -/

@[simp] theorem withLdr_dom (x : Loader) : (s.withLdr x).dom = s.dom := rfl
@[simp] theorem withLdr_eng (x : Loader) : (s.withLdr x).eng = s.eng := rfl
@[simp] theorem withLdr_wake (x : Loader) : (s.withLdr x).wake = s.wake := rfl
@[simp] theorem withLdr_qual (x : Loader) : (s.withLdr x).qual = s.qual := rfl
@[simp] theorem withLdr_mon (x : Loader) : (s.withLdr x).mon = s.mon := rfl
@[simp] theorem withLdr_matcher (x : Loader) : (s.withLdr x).matcher = s.matcher := rfl
@[simp] theorem withLdr_gate (x : Loader) : (s.withLdr x).gate = s.gate := rfl
@[simp] theorem withLdr_up (x : Loader) : (s.withLdr x).up = s.up := rfl
@[simp] theorem withLdr_down (x : Loader) : (s.withLdr x).down = s.down := rfl
@[simp] theorem withLdr_lines (x : Loader) : (s.withLdr x).lines = s.lines := rfl
@[simp] theorem withLdr_mgmt (x : Loader) : (s.withLdr x).mgmt = s.mgmt := rfl
@[simp] theorem withLdr_ldr (x : Loader) : (s.withLdr x).ldr = x := rfl
@[simp] theorem withLdr_pins (x : Loader) : (s.withLdr x).pins = s.pins := rfl
@[simp] theorem withLdr_porEdges (x : Loader) : (s.withLdr x).porEdges = s.porEdges := rfl
@[simp] theorem withLdr_draws (x : Loader) : (s.withLdr x).draws = s.draws := rfl
@[simp] theorem withLdr_pending (x : Loader) : (s.withLdr x).pending = s.pending := rfl

/-! ## withPins -/

@[simp] theorem withPins_dom (x : Pins) : (s.withPins x).dom = s.dom := rfl
@[simp] theorem withPins_eng (x : Pins) : (s.withPins x).eng = s.eng := rfl
@[simp] theorem withPins_wake (x : Pins) : (s.withPins x).wake = s.wake := rfl
@[simp] theorem withPins_qual (x : Pins) : (s.withPins x).qual = s.qual := rfl
@[simp] theorem withPins_mon (x : Pins) : (s.withPins x).mon = s.mon := rfl
@[simp] theorem withPins_matcher (x : Pins) : (s.withPins x).matcher = s.matcher := rfl
@[simp] theorem withPins_gate (x : Pins) : (s.withPins x).gate = s.gate := rfl
@[simp] theorem withPins_up (x : Pins) : (s.withPins x).up = s.up := rfl
@[simp] theorem withPins_down (x : Pins) : (s.withPins x).down = s.down := rfl
@[simp] theorem withPins_lines (x : Pins) : (s.withPins x).lines = s.lines := rfl
@[simp] theorem withPins_mgmt (x : Pins) : (s.withPins x).mgmt = s.mgmt := rfl
@[simp] theorem withPins_ldr (x : Pins) : (s.withPins x).ldr = s.ldr := rfl
@[simp] theorem withPins_pins (x : Pins) : (s.withPins x).pins = x := rfl
@[simp] theorem withPins_porEdges (x : Pins) : (s.withPins x).porEdges = s.porEdges := rfl
@[simp] theorem withPins_draws (x : Pins) : (s.withPins x).draws = s.draws := rfl
@[simp] theorem withPins_pending (x : Pins) : (s.withPins x).pending = s.pending := rfl

/-! ## withPorEdges -/

@[simp] theorem withPorEdges_dom (x : Nat) : (s.withPorEdges x).dom = s.dom := rfl
@[simp] theorem withPorEdges_eng (x : Nat) : (s.withPorEdges x).eng = s.eng := rfl
@[simp] theorem withPorEdges_wake (x : Nat) : (s.withPorEdges x).wake = s.wake := rfl
@[simp] theorem withPorEdges_qual (x : Nat) : (s.withPorEdges x).qual = s.qual := rfl
@[simp] theorem withPorEdges_mon (x : Nat) : (s.withPorEdges x).mon = s.mon := rfl
@[simp] theorem withPorEdges_matcher (x : Nat) : (s.withPorEdges x).matcher = s.matcher := rfl
@[simp] theorem withPorEdges_gate (x : Nat) : (s.withPorEdges x).gate = s.gate := rfl
@[simp] theorem withPorEdges_up (x : Nat) : (s.withPorEdges x).up = s.up := rfl
@[simp] theorem withPorEdges_down (x : Nat) : (s.withPorEdges x).down = s.down := rfl
@[simp] theorem withPorEdges_lines (x : Nat) : (s.withPorEdges x).lines = s.lines := rfl
@[simp] theorem withPorEdges_mgmt (x : Nat) : (s.withPorEdges x).mgmt = s.mgmt := rfl
@[simp] theorem withPorEdges_ldr (x : Nat) : (s.withPorEdges x).ldr = s.ldr := rfl
@[simp] theorem withPorEdges_pins (x : Nat) : (s.withPorEdges x).pins = s.pins := rfl
@[simp] theorem withPorEdges_porEdges (x : Nat) : (s.withPorEdges x).porEdges = x := rfl
@[simp] theorem withPorEdges_draws (x : Nat) : (s.withPorEdges x).draws = s.draws := rfl
@[simp] theorem withPorEdges_pending (x : Nat) : (s.withPorEdges x).pending = s.pending := rfl

/-! ## withDraws -/

@[simp] theorem withDraws_dom (x : Nat) : (s.withDraws x).dom = s.dom := rfl
@[simp] theorem withDraws_eng (x : Nat) : (s.withDraws x).eng = s.eng := rfl
@[simp] theorem withDraws_wake (x : Nat) : (s.withDraws x).wake = s.wake := rfl
@[simp] theorem withDraws_qual (x : Nat) : (s.withDraws x).qual = s.qual := rfl
@[simp] theorem withDraws_mon (x : Nat) : (s.withDraws x).mon = s.mon := rfl
@[simp] theorem withDraws_matcher (x : Nat) : (s.withDraws x).matcher = s.matcher := rfl
@[simp] theorem withDraws_gate (x : Nat) : (s.withDraws x).gate = s.gate := rfl
@[simp] theorem withDraws_up (x : Nat) : (s.withDraws x).up = s.up := rfl
@[simp] theorem withDraws_down (x : Nat) : (s.withDraws x).down = s.down := rfl
@[simp] theorem withDraws_lines (x : Nat) : (s.withDraws x).lines = s.lines := rfl
@[simp] theorem withDraws_mgmt (x : Nat) : (s.withDraws x).mgmt = s.mgmt := rfl
@[simp] theorem withDraws_ldr (x : Nat) : (s.withDraws x).ldr = s.ldr := rfl
@[simp] theorem withDraws_pins (x : Nat) : (s.withDraws x).pins = s.pins := rfl
@[simp] theorem withDraws_porEdges (x : Nat) : (s.withDraws x).porEdges = s.porEdges := rfl
@[simp] theorem withDraws_draws (x : Nat) : (s.withDraws x).draws = x := rfl
@[simp] theorem withDraws_pending (x : Nat) : (s.withDraws x).pending = s.pending := rfl

/-! ## withPending -/

@[simp] theorem withPending_dom (x : List Instr) : (s.withPending x).dom = s.dom := rfl
@[simp] theorem withPending_eng (x : List Instr) : (s.withPending x).eng = s.eng := rfl
@[simp] theorem withPending_wake (x : List Instr) : (s.withPending x).wake = s.wake := rfl
@[simp] theorem withPending_qual (x : List Instr) : (s.withPending x).qual = s.qual := rfl
@[simp] theorem withPending_mon (x : List Instr) : (s.withPending x).mon = s.mon := rfl
@[simp] theorem withPending_matcher (x : List Instr) : (s.withPending x).matcher = s.matcher := rfl
@[simp] theorem withPending_gate (x : List Instr) : (s.withPending x).gate = s.gate := rfl
@[simp] theorem withPending_up (x : List Instr) : (s.withPending x).up = s.up := rfl
@[simp] theorem withPending_down (x : List Instr) : (s.withPending x).down = s.down := rfl
@[simp] theorem withPending_lines (x : List Instr) : (s.withPending x).lines = s.lines := rfl
@[simp] theorem withPending_mgmt (x : List Instr) : (s.withPending x).mgmt = s.mgmt := rfl
@[simp] theorem withPending_ldr (x : List Instr) : (s.withPending x).ldr = s.ldr := rfl
@[simp] theorem withPending_pins (x : List Instr) : (s.withPending x).pins = s.pins := rfl
@[simp] theorem withPending_porEdges (x : List Instr) : (s.withPending x).porEdges = s.porEdges := rfl
@[simp] theorem withPending_draws (x : List Instr) : (s.withPending x).draws = s.draws := rfl
@[simp] theorem withPending_pending (x : List Instr) : (s.withPending x).pending = x := rfl

end Sys2Proof.Machine
end

