-- ==== Sys2Proof/Laws/Domains.lean ====
section
/-! SUPPORT. What a write to the Domain Table does: a status record replaced, a recorded state written, every domain
switched off, the link recomputed. -/

namespace Sys2Proof.Machine

/-! ## Vectors indexed by Fin -/

/-- Reading a vector after one entry has been replaced. -/
theorem vector_getElem_set {α : Type} {n : Nat} (v : Vector α n) (i j : Fin n) (x : α) :
    (v.set i x)[j] = if j = i then x else v[j] := by
  simp only [Fin.getElem_fin, Vector.getElem_set, Fin.ext_iff, eq_comm]

/-- Two vectors are equal if they agree at every index. -/
theorem vector_ext_fin {α : Type} {n : Nat} {v w : Vector α n} (h : ∀ i : Fin n, v[i] = w[i]) : v = w :=
  Vector.ext fun i hi => h ⟨i, hi⟩

/-- Replacing an entry by itself changes nothing. -/
theorem vector_set_self {α : Type} {n : Nat} (v : Vector α n) (i : Fin n) : v.set i v[i] = v :=
  vector_ext_fin fun j => by rw [vector_getElem_set]; split <;> simp_all

/-! ## Status records -/

section
variable (s : State) (d e : Domain) (x : DomainStatus)

theorem withStatus_status : (s.withStatus d x).dom.status[e] = if e = d then x else s.dom.status[e] :=
  vector_getElem_set _ _ _ _

theorem withStatus_recorded : (s.withStatus d x).recorded e = if e = d then x.recorded else s.recorded e := by
  simp only [State.recorded, withStatus_status]; split <;> rfl

@[simp] theorem withStatus_config : (s.withStatus d x).dom.config = s.dom.config := rfl
@[simp] theorem withStatus_controller : (s.withStatus d x).dom.controller = s.dom.controller := rfl
@[simp] theorem withStatus_agentMap : (s.withStatus d x).dom.agentMap = s.dom.agentMap := rfl
@[simp] theorem withStatus_linkUp : (s.withStatus d x).dom.linkUp = s.dom.linkUp := rfl
@[simp] theorem withStatus_eng : (s.withStatus d x).eng = s.eng := rfl
@[simp] theorem withStatus_wake : (s.withStatus d x).wake = s.wake := rfl
@[simp] theorem withStatus_qual : (s.withStatus d x).qual = s.qual := rfl
@[simp] theorem withStatus_mon : (s.withStatus d x).mon = s.mon := rfl
@[simp] theorem withStatus_matcher : (s.withStatus d x).matcher = s.matcher := rfl
@[simp] theorem withStatus_gate : (s.withStatus d x).gate = s.gate := rfl
@[simp] theorem withStatus_up : (s.withStatus d x).up = s.up := rfl
@[simp] theorem withStatus_down : (s.withStatus d x).down = s.down := rfl
@[simp] theorem withStatus_lines : (s.withStatus d x).lines = s.lines := rfl
@[simp] theorem withStatus_mgmt : (s.withStatus d x).mgmt = s.mgmt := rfl
@[simp] theorem withStatus_ldr : (s.withStatus d x).ldr = s.ldr := rfl
@[simp] theorem withStatus_pins : (s.withStatus d x).pins = s.pins := rfl
@[simp] theorem withStatus_pending : (s.withStatus d x).pending = s.pending := rfl
@[simp] theorem withStatus_linkHeld : (s.withStatus d x).linkHeld = s.linkHeld := rfl

end

/-! ## The link -/

/-- A link that already follows the controller domain, or is held and UP, is not changed. -/
theorem recomputeLink_of_linkRight {s : State} (h : s.LinkRight) : recomputeLink s = s := by
  unfold State.LinkRight at h
  unfold recomputeLink
  split
  · rfl
  · rename_i hh
    rw [if_neg hh] at h
    by_cases hr : s.recorded s.dom.controller = .on <;> simp [h, hr]

/-- The controller domain not ON and the link not held: the link is DOWN afterwards. -/
theorem recomputeLink_of_not_on {s : State} (hr : s.recorded s.dom.controller ≠ .on) (hh : s.linkHeld = false) :
    recomputeLink s = if s.dom.linkUp then linkDown s else s := by
  simp [recomputeLink, hr, hh]

/-! ## Recorded states -/

/-- With no record held a release changes nothing. -/
theorem releaseDomain_of_hold_nil {s : State} (d : Domain) (h : s.gate.hold = []) : releaseDomain d s = s := by
  simp [releaseDomain, State.withHold, h, State.withGate]
  cases s with | mk _ _ _ _ _ _ gate => cases gate; simp_all

/-- A write of a recorded state, with its consequences read off the state before (R16). -/
theorem writeDomain_eq (d : Domain) (st : DomState) (s : State) :
    writeDomain d st s =
      (fun s2 => if st = .on then releaseDomain d s2 else s2)
        (if s.dom.controller = d then recomputeLink (s.withStatus d { s.dom.status[d] with recorded := st })
          else s.withStatus d { s.dom.status[d] with recorded := st }) := rfl

/-- A write of the recorded state of a domain that is not the controller's, with no record held. -/
theorem writeDomain_of_other {s : State} {d : Domain} (st : DomState) (hd : d ≠ s.dom.controller) (hh : s.gate.hold = []) :
    writeDomain d st s = s.withStatus d { s.dom.status[d] with recorded := st } := by
  rw [writeDomain_eq, if_neg (Ne.symm hd)]
  by_cases h : st = .on
  · simp only [if_pos h]; exact releaseDomain_of_hold_nil d hh
  · simp only [if_neg h]

/-! ## Every domain off -/

/-- What switching a list of domains off does with the link not held: the listed status records, the link and what waits on
it, DISCARDED; nothing else. -/
structure OffAfter (l : List Domain) (s t : State) : Prop where
  config     : t.dom.config = s.dom.config
  controller : t.dom.controller = s.dom.controller
  agentMap   : t.dom.agentMap = s.dom.agentMap
  eng        : t.eng = s.eng
  wake       : t.wake = s.wake
  qual       : t.qual = s.qual
  mon        : t.mon = s.mon
  matcher    : t.matcher = s.matcher
  gate       : t.gate = s.gate
  down       : t.down = s.down
  lines      : t.lines = s.lines
  retained   : t.mgmt.retained = s.mgmt.retained
  serving    : t.mgmt.serving = s.mgmt.serving
  ldr        : t.ldr = s.ldr
  pending    : t.pending = s.pending
  status     : ∀ d : Domain, t.dom.status[d] =
    if d ∈ l then { s.dom.status[d] with recorded := .off } else s.dom.status[d]
  link       : t.dom.linkUp = (s.dom.linkUp && !decide (s.dom.controller ∈ l))
  own        : t.up.own = if s.dom.linkUp && decide (s.dom.controller ∈ l) then [] else s.up.own
  quiet      : s.dom.linkUp = false → t.up = s.up ∧ t.mgmt = s.mgmt

theorem offAfter_one (d : Domain) (s : State) (h : s.linkHeld = false) : OffAfter [d] s (writeDomain d .off s) := by
  have hst (e : Domain) : (s.withStatus d { s.dom.status[d] with recorded := .off }).dom.status[e] =
      if e ∈ [d] then { s.dom.status[e] with recorded := .off } else s.dom.status[e] := by
    rw [withStatus_status]; simp only [List.mem_singleton]; split <;> simp_all
  rw [writeDomain_eq]
  simp only [if_neg (show ¬ DomState.off = DomState.on by simp)]
  by_cases hc : s.dom.controller = d
  · rw [if_pos hc, recomputeLink_of_not_on (s := s.withStatus d _) (by rw [withStatus_recorded]; simp [hc]) h,
      withStatus_linkUp]
    cases hl : s.dom.linkUp with
    | false =>
      simp only [Bool.false_eq_true, if_false]
      constructor <;> first | rfl | exact hst | simp [hl]
    | true =>
      simp only [if_true]
      constructor <;> first | rfl | exact hst | skip
      · show false = _; simp [hc]
      · show [] = _; simp [hc, hl]
      · simp [hl]
  · rw [if_neg hc]
    constructor <;> first | rfl | exact hst | skip
    · simp [hc]
    · simp [hc]
    · exact fun _ => ⟨rfl, rfl⟩

theorem offAfter_trans {l m : List Domain} {s t u : State} (h : OffAfter l s t) (k : OffAfter m t u) :
    OffAfter (l ++ m) s u where
  config := k.config.trans h.config
  controller := k.controller.trans h.controller
  agentMap := k.agentMap.trans h.agentMap
  eng := k.eng.trans h.eng
  wake := k.wake.trans h.wake
  qual := k.qual.trans h.qual
  mon := k.mon.trans h.mon
  matcher := k.matcher.trans h.matcher
  gate := k.gate.trans h.gate
  down := k.down.trans h.down
  lines := k.lines.trans h.lines
  retained := k.retained.trans h.retained
  serving := k.serving.trans h.serving
  ldr := k.ldr.trans h.ldr
  pending := k.pending.trans h.pending
  status d := by
    rw [k.status d, h.status d]
    by_cases hl : d ∈ l <;> by_cases hm : d ∈ m <;> simp [hl, hm]
  link := by
    rw [k.link, h.link, h.controller]
    by_cases hl : s.dom.controller ∈ l <;> by_cases hm : s.dom.controller ∈ m <;> simp [hl, hm]
  own := by
    rw [k.own, h.link, h.own, h.controller]
    by_cases hl : s.dom.controller ∈ l <;> by_cases hm : s.dom.controller ∈ m <;> cases s.dom.linkUp <;> simp [hl, hm]
  quiet hl := by
    obtain ⟨h1, h2⟩ := h.quiet hl
    obtain ⟨k1, k2⟩ := k.quiet (by rw [h.link, hl]; rfl)
    exact ⟨k1.trans h1, k2.trans h2⟩

theorem offAfter_nil (s : State) : OffAfter [] s s where
  config := rfl
  controller := rfl
  agentMap := rfl
  eng := rfl
  wake := rfl
  qual := rfl
  mon := rfl
  matcher := rfl
  gate := rfl
  down := rfl
  lines := rfl
  retained := rfl
  serving := rfl
  ldr := rfl
  pending := rfl
  status d := by simp
  link := by simp
  own := by simp
  quiet _ := ⟨rfl, rfl⟩

theorem offAfter_foldl (l : List Domain) (s : State) (h : s.linkHeld = false) :
    OffAfter l s (l.foldl (fun s d => writeDomain d .off s) s) := by
  induction l generalizing s with
  | nil => exact offAfter_nil s
  | cons d l ih =>
    have h1 := offAfter_one d s h
    exact offAfter_trans h1 (ih _ (by simpa [State.linkHeld, h1.ldr] using h))

/-- What R82 and R85 do to the domains. -/
theorem offAfter_allDomainsOff (s : State) (h : s.linkHeld = false) : OffAfter allDomains s (allDomainsOff s) :=
  offAfter_foldl allDomains s h

theorem mem_allDomains (d : Domain) : d ∈ allDomains := by revert d; decide

end Sys2Proof.Machine
end

