-- ==== Sys2Proof/Laws/Frames.lean ====
section
/-! SUPPORT. The blocks that each shared operation leaves alone, one lemma per operation and field. -/

namespace Sys2Proof.Machine

/-- A fold of operations that each leave a reading alone leaves it alone. -/
theorem foldl_field {α β : Type} (g : State → β) (op : State → α → State) (h : ∀ s a, g (op s a) = g s) (l : List α)
    (s : State) : g (l.foldl op s) = g s := by
  induction l generalizing s with
  | nil => rfl
  | cons a l ih => exact (ih _).trans (h s a)

variable (s : State)

/-! ## queueUp -/

@[simp] theorem queueUp_eng (f : Frame) : (queueUp f s).eng = s.eng := by unfold queueUp; (repeat' split) <;> rfl
@[simp] theorem queueUp_wake (f : Frame) : (queueUp f s).wake = s.wake := by unfold queueUp; (repeat' split) <;> rfl
@[simp] theorem queueUp_qual (f : Frame) : (queueUp f s).qual = s.qual := by unfold queueUp; (repeat' split) <;> rfl
@[simp] theorem queueUp_mon (f : Frame) : (queueUp f s).mon = s.mon := by unfold queueUp; (repeat' split) <;> rfl
@[simp] theorem queueUp_matcher (f : Frame) : (queueUp f s).matcher = s.matcher :=
  by unfold queueUp; (repeat' split) <;> rfl
@[simp] theorem queueUp_lines (f : Frame) : (queueUp f s).lines = s.lines := by unfold queueUp; (repeat' split) <;> rfl
@[simp] theorem queueUp_ldr (f : Frame) : (queueUp f s).ldr = s.ldr := by unfold queueUp; (repeat' split) <;> rfl
@[simp] theorem queueUp_pins (f : Frame) : (queueUp f s).pins = s.pins := by unfold queueUp; (repeat' split) <;> rfl
@[simp] theorem queueUp_pending (f : Frame) : (queueUp f s).pending = s.pending :=
  by unfold queueUp; (repeat' split) <;> rfl
@[simp] theorem queueUp_config (f : Frame) : (queueUp f s).dom.config = s.dom.config :=
  by unfold queueUp; (repeat' split) <;> rfl
@[simp] theorem queueUp_controller (f : Frame) : (queueUp f s).dom.controller = s.dom.controller :=
  by unfold queueUp; (repeat' split) <;> rfl
@[simp] theorem queueUp_agentMap (f : Frame) : (queueUp f s).dom.agentMap = s.dom.agentMap :=
  by unfold queueUp; (repeat' split) <;> rfl
@[simp] theorem queueUp_retained (f : Frame) : (queueUp f s).mgmt.retained = s.mgmt.retained :=
  by unfold queueUp; (repeat' split) <;> rfl
@[simp] theorem queueUp_serving (f : Frame) : (queueUp f s).mgmt.serving = s.mgmt.serving :=
  by unfold queueUp; (repeat' split) <;> rfl

/-! ## queueDown -/

@[simp] theorem queueDown_eng (f : Frame) : (queueDown f s).eng = s.eng := by unfold queueDown; split <;> rfl
@[simp] theorem queueDown_wake (f : Frame) : (queueDown f s).wake = s.wake := by unfold queueDown; split <;> rfl
@[simp] theorem queueDown_qual (f : Frame) : (queueDown f s).qual = s.qual := by unfold queueDown; split <;> rfl
@[simp] theorem queueDown_mon (f : Frame) : (queueDown f s).mon = s.mon := by unfold queueDown; split <;> rfl
@[simp] theorem queueDown_matcher (f : Frame) : (queueDown f s).matcher = s.matcher :=
  by unfold queueDown; split <;> rfl
@[simp] theorem queueDown_lines (f : Frame) : (queueDown f s).lines = s.lines := by unfold queueDown; split <;> rfl
@[simp] theorem queueDown_ldr (f : Frame) : (queueDown f s).ldr = s.ldr := by unfold queueDown; split <;> rfl
@[simp] theorem queueDown_pins (f : Frame) : (queueDown f s).pins = s.pins := by unfold queueDown; split <;> rfl
@[simp] theorem queueDown_pending (f : Frame) : (queueDown f s).pending = s.pending :=
  by unfold queueDown; split <;> rfl
@[simp] theorem queueDown_config (f : Frame) : (queueDown f s).dom.config = s.dom.config :=
  by unfold queueDown; split <;> rfl
@[simp] theorem queueDown_controller (f : Frame) : (queueDown f s).dom.controller = s.dom.controller :=
  by unfold queueDown; split <;> rfl
@[simp] theorem queueDown_agentMap (f : Frame) : (queueDown f s).dom.agentMap = s.dom.agentMap :=
  by unfold queueDown; split <;> rfl
@[simp] theorem queueDown_retained (f : Frame) : (queueDown f s).mgmt.retained = s.mgmt.retained :=
  by unfold queueDown; split <;> rfl
@[simp] theorem queueDown_serving (f : Frame) : (queueDown f s).mgmt.serving = s.mgmt.serving :=
  by unfold queueDown; split <;> rfl

/-! ## refuseDown -/

@[simp] theorem refuseDown_eng (f : Frame) : (refuseDown f s).eng = s.eng :=
  by unfold refuseDown; split <;> first | rfl | simp
@[simp] theorem refuseDown_wake (f : Frame) : (refuseDown f s).wake = s.wake :=
  by unfold refuseDown; split <;> first | rfl | simp
@[simp] theorem refuseDown_qual (f : Frame) : (refuseDown f s).qual = s.qual :=
  by unfold refuseDown; split <;> first | rfl | simp
@[simp] theorem refuseDown_mon (f : Frame) : (refuseDown f s).mon = s.mon :=
  by unfold refuseDown; split <;> first | rfl | simp
@[simp] theorem refuseDown_matcher (f : Frame) : (refuseDown f s).matcher = s.matcher :=
  by unfold refuseDown; split <;> first | rfl | simp
@[simp] theorem refuseDown_lines (f : Frame) : (refuseDown f s).lines = s.lines :=
  by unfold refuseDown; split <;> first | rfl | simp
@[simp] theorem refuseDown_ldr (f : Frame) : (refuseDown f s).ldr = s.ldr :=
  by unfold refuseDown; split <;> first | rfl | simp
@[simp] theorem refuseDown_pins (f : Frame) : (refuseDown f s).pins = s.pins :=
  by unfold refuseDown; split <;> first | rfl | simp
@[simp] theorem refuseDown_pending (f : Frame) : (refuseDown f s).pending = s.pending :=
  by unfold refuseDown; split <;> first | rfl | simp
@[simp] theorem refuseDown_config (f : Frame) : (refuseDown f s).dom.config = s.dom.config :=
  by unfold refuseDown; split <;> first | rfl | simp
@[simp] theorem refuseDown_controller (f : Frame) : (refuseDown f s).dom.controller = s.dom.controller :=
  by unfold refuseDown; split <;> first | rfl | simp
@[simp] theorem refuseDown_agentMap (f : Frame) : (refuseDown f s).dom.agentMap = s.dom.agentMap :=
  by unfold refuseDown; split <;> first | rfl | simp
@[simp] theorem refuseDown_retained (f : Frame) : (refuseDown f s).mgmt.retained = s.mgmt.retained :=
  by unfold refuseDown; split <;> first | rfl | simp
@[simp] theorem refuseDown_serving (f : Frame) : (refuseDown f s).mgmt.serving = s.mgmt.serving :=
  by unfold refuseDown; split <;> first | rfl | simp

/-! ## The passes over records that leave -/

section
variable {β : Type} (get : State → β) (hr : ∀ s f, get (refuseDown f s) = get s) (hc : ∀ s n, get (countDiscarded n s) = get s)
  (hq : ∀ s f, get (queueUp f s) = get s) (ho : ∀ s n, get (s.withOwnTaken n) = get s)
include hr hc

/-- What refusing a message and counting a discarded one leave alone, handling records leaves alone. -/
theorem dropRecords_field (lost : HoldRecord → Bool) (l : List HoldRecord) (s : State) : get (dropRecords lost l s) = get s :=
  foldl_field get (dropRecord lost) (fun t r => by unfold dropRecord; split <;> [exact hc _ _; exact hr _ _]) _ _

include hq ho

/-- What the own-frame queue's changes leave alone besides, the pass of an event leaves alone. -/
theorem passAt_field (place : Nat) (lost : HoldRecord → Bool) (l : List HoldRecord) (s : State) :
    get (passAt place lost l s) = get s := by
  unfold passAt
  repeat' split
  · rfl
  · exact (foldl_field get _ hq _ _).trans ((dropRecords_field get hr hc _ _ _).trans (ho s _))
  · exact dropRecords_field get hr hc _ _ _

theorem reclassify_field (left : Departed) (s : State) : get (reclassify left s) = get s := passAt_field get hr hc hq ho _ _ _ _

theorem dropAllDown_field (hh : ∀ s h, get (s.withHold h) = get s) (left : Departed) (s : State) :
    get (dropAllDown left s) = get s := (passAt_field get hr hc hq ho _ _ _ _).trans (hh s _)

end

@[simp] theorem dropAllDown_eng (left : Departed) : (dropAllDown left s).eng = s.eng :=
  dropAllDown_field (fun t : State => t.eng) refuseDown_eng (fun _ _ => rfl) queueUp_eng (fun _ _ => rfl) (fun _ _ => rfl) left s
@[simp] theorem reclassify_eng (left : Departed) : (reclassify left s).eng = s.eng :=
  reclassify_field (fun t : State => t.eng) refuseDown_eng (fun _ _ => rfl) queueUp_eng (fun _ _ => rfl) left s
@[simp] theorem dropAllDown_wake (left : Departed) : (dropAllDown left s).wake = s.wake :=
  dropAllDown_field (fun t : State => t.wake) refuseDown_wake (fun _ _ => rfl) queueUp_wake (fun _ _ => rfl) (fun _ _ => rfl) left s
@[simp] theorem reclassify_wake (left : Departed) : (reclassify left s).wake = s.wake :=
  reclassify_field (fun t : State => t.wake) refuseDown_wake (fun _ _ => rfl) queueUp_wake (fun _ _ => rfl) left s
@[simp] theorem dropAllDown_qual (left : Departed) : (dropAllDown left s).qual = s.qual :=
  dropAllDown_field (fun t : State => t.qual) refuseDown_qual (fun _ _ => rfl) queueUp_qual (fun _ _ => rfl) (fun _ _ => rfl) left s
@[simp] theorem reclassify_qual (left : Departed) : (reclassify left s).qual = s.qual :=
  reclassify_field (fun t : State => t.qual) refuseDown_qual (fun _ _ => rfl) queueUp_qual (fun _ _ => rfl) left s
@[simp] theorem dropAllDown_mon (left : Departed) : (dropAllDown left s).mon = s.mon :=
  dropAllDown_field (fun t : State => t.mon) refuseDown_mon (fun _ _ => rfl) queueUp_mon (fun _ _ => rfl) (fun _ _ => rfl) left s
@[simp] theorem reclassify_mon (left : Departed) : (reclassify left s).mon = s.mon :=
  reclassify_field (fun t : State => t.mon) refuseDown_mon (fun _ _ => rfl) queueUp_mon (fun _ _ => rfl) left s
@[simp] theorem dropAllDown_matcher (left : Departed) : (dropAllDown left s).matcher = s.matcher :=
  dropAllDown_field (fun t : State => t.matcher) refuseDown_matcher (fun _ _ => rfl) queueUp_matcher (fun _ _ => rfl) (fun _ _ => rfl) left s
@[simp] theorem reclassify_matcher (left : Departed) : (reclassify left s).matcher = s.matcher :=
  reclassify_field (fun t : State => t.matcher) refuseDown_matcher (fun _ _ => rfl) queueUp_matcher (fun _ _ => rfl) left s
@[simp] theorem dropAllDown_lines (left : Departed) : (dropAllDown left s).lines = s.lines :=
  dropAllDown_field (fun t : State => t.lines) refuseDown_lines (fun _ _ => rfl) queueUp_lines (fun _ _ => rfl) (fun _ _ => rfl) left s
@[simp] theorem reclassify_lines (left : Departed) : (reclassify left s).lines = s.lines :=
  reclassify_field (fun t : State => t.lines) refuseDown_lines (fun _ _ => rfl) queueUp_lines (fun _ _ => rfl) left s
@[simp] theorem dropAllDown_ldr (left : Departed) : (dropAllDown left s).ldr = s.ldr :=
  dropAllDown_field (fun t : State => t.ldr) refuseDown_ldr (fun _ _ => rfl) queueUp_ldr (fun _ _ => rfl) (fun _ _ => rfl) left s
@[simp] theorem reclassify_ldr (left : Departed) : (reclassify left s).ldr = s.ldr :=
  reclassify_field (fun t : State => t.ldr) refuseDown_ldr (fun _ _ => rfl) queueUp_ldr (fun _ _ => rfl) left s
@[simp] theorem dropAllDown_pins (left : Departed) : (dropAllDown left s).pins = s.pins :=
  dropAllDown_field (fun t : State => t.pins) refuseDown_pins (fun _ _ => rfl) queueUp_pins (fun _ _ => rfl) (fun _ _ => rfl) left s
@[simp] theorem reclassify_pins (left : Departed) : (reclassify left s).pins = s.pins :=
  reclassify_field (fun t : State => t.pins) refuseDown_pins (fun _ _ => rfl) queueUp_pins (fun _ _ => rfl) left s
@[simp] theorem dropAllDown_pending (left : Departed) : (dropAllDown left s).pending = s.pending :=
  dropAllDown_field (fun t : State => t.pending) refuseDown_pending (fun _ _ => rfl) queueUp_pending (fun _ _ => rfl) (fun _ _ => rfl) left s
@[simp] theorem reclassify_pending (left : Departed) : (reclassify left s).pending = s.pending :=
  reclassify_field (fun t : State => t.pending) refuseDown_pending (fun _ _ => rfl) queueUp_pending (fun _ _ => rfl) left s
@[simp] theorem dropAllDown_config (left : Departed) : (dropAllDown left s).dom.config = s.dom.config :=
  dropAllDown_field (fun t : State => t.dom.config) refuseDown_config (fun _ _ => rfl) queueUp_config (fun _ _ => rfl) (fun _ _ => rfl) left s
@[simp] theorem reclassify_config (left : Departed) : (reclassify left s).dom.config = s.dom.config :=
  reclassify_field (fun t : State => t.dom.config) refuseDown_config (fun _ _ => rfl) queueUp_config (fun _ _ => rfl) left s
@[simp] theorem dropAllDown_controller (left : Departed) : (dropAllDown left s).dom.controller = s.dom.controller :=
  dropAllDown_field (fun t : State => t.dom.controller) refuseDown_controller (fun _ _ => rfl) queueUp_controller (fun _ _ => rfl) (fun _ _ => rfl) left s
@[simp] theorem reclassify_controller (left : Departed) : (reclassify left s).dom.controller = s.dom.controller :=
  reclassify_field (fun t : State => t.dom.controller) refuseDown_controller (fun _ _ => rfl) queueUp_controller (fun _ _ => rfl) left s
@[simp] theorem dropAllDown_agentMap (left : Departed) : (dropAllDown left s).dom.agentMap = s.dom.agentMap :=
  dropAllDown_field (fun t : State => t.dom.agentMap) refuseDown_agentMap (fun _ _ => rfl) queueUp_agentMap (fun _ _ => rfl) (fun _ _ => rfl) left s
@[simp] theorem reclassify_agentMap (left : Departed) : (reclassify left s).dom.agentMap = s.dom.agentMap :=
  reclassify_field (fun t : State => t.dom.agentMap) refuseDown_agentMap (fun _ _ => rfl) queueUp_agentMap (fun _ _ => rfl) left s
@[simp] theorem dropAllDown_retained (left : Departed) : (dropAllDown left s).mgmt.retained = s.mgmt.retained :=
  dropAllDown_field (fun t : State => t.mgmt.retained) refuseDown_retained (fun _ _ => rfl) queueUp_retained (fun _ _ => rfl) (fun _ _ => rfl) left s
@[simp] theorem reclassify_retained (left : Departed) : (reclassify left s).mgmt.retained = s.mgmt.retained :=
  reclassify_field (fun t : State => t.mgmt.retained) refuseDown_retained (fun _ _ => rfl) queueUp_retained (fun _ _ => rfl) left s
@[simp] theorem dropAllDown_serving (left : Departed) : (dropAllDown left s).mgmt.serving = s.mgmt.serving :=
  dropAllDown_field (fun t : State => t.mgmt.serving) refuseDown_serving (fun _ _ => rfl) queueUp_serving (fun _ _ => rfl) (fun _ _ => rfl) left s
@[simp] theorem reclassify_serving (left : Departed) : (reclassify left s).mgmt.serving = s.mgmt.serving :=
  reclassify_field (fun t : State => t.mgmt.serving) refuseDown_serving (fun _ _ => rfl) queueUp_serving (fun _ _ => rfl) left s

/-! ## What one event takes out of the Hold Queue (R143, R148) -/

/-- No record belongs to a domain of the empty set. -/
@[simp] theorem downRecordOf_zero : s.downRecordOf 0#12 = fun _ => false := by
  funext r
  unfold State.downRecordOf State.recordOf
  cases s.mapped r.frame.dest <;> simp [hasBit]

@[simp] theorem recordOf_zero : s.recordOf 0#12 = fun _ => false := by
  funext r
  unfold State.recordOf
  cases s.mapped r.frame.dest <;> simp [hasBit]

/-- With no domain leaving, the event goes on as it began. -/
@[simp] theorem Departed.start_join (t : State) : (Departed.start s).join 0#12 t = .start s := by
  unfold Departed.join
  split <;> simp [Departed.start]

/-- With no domain leaving, every record stays. -/
@[simp] theorem depart_zero (left : Departed) : depart 0#12 left s = (s, left.join 0#12 s) := by
  obtain ⟨_, _, _, _, _, _, ⟨hold, _⟩⟩ := s
  unfold depart
  simp [State.withHold, State.withGate]

/-- Where no record has left, the pass does nothing. -/
theorem reclassify_none {left : Departed} (h : left.records s = []) : reclassify left s = s := by
  unfold reclassify; rw [h]; rfl

/-- At an event that takes no record out, the pass does nothing. -/
@[simp] theorem reclassify_start (t : State) : reclassify (.start s) t = t :=
  reclassify_none t (by simp [Departed.records, Departed.start])

/-- With no record held at the event's beginning, none leaves. -/
theorem reclassify_empty {s : State} {left : Departed} (h : left.queue = []) : reclassify left s = s :=
  reclassify_none s (by simp [Departed.records, h])

variable {s}

/-- With the link DOWN every record that leaves is counted, whatever fixed its end. -/
theorem dropRecords_down (lost lost' : HoldRecord → Bool) (l : List HoldRecord) (h : s.dom.linkUp = false) :
    dropRecords lost l s = dropRecords lost' l s := by
  induction l generalizing s with
  | nil => rfl
  | cons r l ih =>
    have one : ∀ p : HoldRecord → Bool, dropRecord p s r = countDiscarded 1 s := fun p => by
      unfold dropRecord refuseDown
      repeat' split
      all_goals first | rfl | simp_all
    show dropRecords lost l (dropRecord lost s r) = dropRecords lost' l (dropRecord lost' s r)
    rw [one lost, one lost']
    exact ih (s := countDiscarded 1 s) h

theorem downRecordOf_congr {t : State} (h : t.dom.agentMap = s.dom.agentMap) (x : DomainSet) :
    t.downRecordOf x = s.downRecordOf x := by
  funext r
  unfold State.downRecordOf State.recordOf State.mapped
  rw [h]

/-- A pass that puts its answers at the end of the queue handles the records by the link state as it stands. -/
theorem passAt_end (lost : HoldRecord → Bool) (l : List HoldRecord) :
    passAt s.up.own.length lost l s = dropRecords lost l s := by
  have hs : s.withOwnTaken s.up.own.length = s := by unfold State.withOwnTaken State.withUp; simp
  unfold passAt
  rw [List.drop_length, hs]
  repeat' split
  all_goals rfl

theorem passAt_down (place : Nat) (lost : HoldRecord → Bool) (l : List HoldRecord) (h : s.dom.linkUp = false) :
    passAt place lost l s = dropRecords (fun _ => false) l s := by
  unfold passAt
  split
  · rfl
  · rw [if_neg (by rw [h]; decide)]; exact dropRecords_down _ _ _ h

/-- One step of an event takes records out and no upstream frame follows: in the end they are handled in queue order, each by the
link state as it stands, as R148 gives. -/
theorem reclassify_depart {t : State} (x : DomainSet) (hl : t.dom.linkUp = s.dom.linkUp) (ho : t.up.own = s.up.own)
    (hm : t.dom.agentMap = s.dom.agentMap) :
    reclassify (depart x (.start s) s).2 t = dropRecords (fun _ => false) (s.gate.hold.filter (s.downRecordOf x)) t := by
  have hr : (depart x (.start s) s).2.records t = s.gate.hold.filter (s.downRecordOf x) := by
    simp only [depart, Departed.join, Departed.start, Departed.records, downRecordOf_congr hm]
    split <;> simp
  unfold reclassify
  rw [hr]
  by_cases h : s.dom.linkUp = true
  · have hlost : (depart x (.start s) s).2.lostRecord t = fun _ => false := by
      simp [depart, Departed.join, Departed.start, Departed.lostRecord, h]
    rw [hlost]
    by_cases hany : s.gate.hold.any (s.downRecordOf x) = true
    · have hp : (depart x (.start s) s).2.place = t.up.own.length := by
        simp [depart, Departed.join, h, hany, ho]
      rw [hp, passAt_end]
    · have : s.gate.hold.filter (s.downRecordOf x) = [] := by
        rw [List.filter_eq_nil_iff]
        intro r hr hx
        exact hany (List.any_eq_true.2 ⟨r, hr, hx⟩)
      rw [this]; rfl
  · exact passAt_down _ _ _ (hl.trans (by simpa using h))

/-- R143 where FORCING begins at an event that has already taken records out and takes another: every DOWN record of the queue
that the event found is handled in its order, whether it left with its domain or with FORCING. -/
theorem dropAllDown_depart {t : State} (x : DomainSet) (hl : t.dom.linkUp = s.dom.linkUp)
    (hany : (t.gate.hold.any fun r => !r.up) = true) :
    dropAllDown (depart x (.start s) s).2 t =
      dropRecords (fun _ => false) (s.gate.hold.filter fun r => !r.up) (t.withHold (t.gate.hold.filter fun r => r.up)) := by
  have hq : (depart x (.start s) s).2.queue = s.gate.hold := by
    simp only [depart, Departed.join, Departed.start]; split <;> rfl
  unfold dropAllDown
  rw [hq, if_pos hany]
  by_cases h : s.dom.linkUp = true
  · have hlost : (depart x (.start s) s).2.lostRecord t = fun _ => false := by
      simp [depart, Departed.join, Departed.start, Departed.lostRecord, h]
    rw [hlost]
    exact passAt_end (s := t.withHold _) _ _
  · exact passAt_down _ _ _ (hl.trans (by simpa using h))

variable (s)

/-! ## releaseDomain -/

@[simp] theorem releaseDomain_eng (d : Domain) : (releaseDomain d s).eng = s.eng := rfl
@[simp] theorem releaseDomain_wake (d : Domain) : (releaseDomain d s).wake = s.wake := rfl
@[simp] theorem releaseDomain_qual (d : Domain) : (releaseDomain d s).qual = s.qual := rfl
@[simp] theorem releaseDomain_mon (d : Domain) : (releaseDomain d s).mon = s.mon := rfl
@[simp] theorem releaseDomain_matcher (d : Domain) : (releaseDomain d s).matcher = s.matcher := rfl
@[simp] theorem releaseDomain_lines (d : Domain) : (releaseDomain d s).lines = s.lines := rfl
@[simp] theorem releaseDomain_ldr (d : Domain) : (releaseDomain d s).ldr = s.ldr := rfl
@[simp] theorem releaseDomain_pins (d : Domain) : (releaseDomain d s).pins = s.pins := rfl
@[simp] theorem releaseDomain_pending (d : Domain) : (releaseDomain d s).pending = s.pending := rfl
@[simp] theorem releaseDomain_config (d : Domain) : (releaseDomain d s).dom.config = s.dom.config := rfl
@[simp] theorem releaseDomain_controller (d : Domain) : (releaseDomain d s).dom.controller = s.dom.controller := rfl
@[simp] theorem releaseDomain_agentMap (d : Domain) : (releaseDomain d s).dom.agentMap = s.dom.agentMap := rfl
@[simp] theorem releaseDomain_retained (d : Domain) : (releaseDomain d s).mgmt.retained = s.mgmt.retained := rfl
@[simp] theorem releaseDomain_serving (d : Domain) : (releaseDomain d s).mgmt.serving = s.mgmt.serving := rfl

/-! ## markUp -/

@[simp] theorem markUp_eng : (markUp s).eng = s.eng := by unfold markUp; split <;> rfl
@[simp] theorem markUp_wake : (markUp s).wake = s.wake := by unfold markUp; split <;> rfl
@[simp] theorem markUp_qual : (markUp s).qual = s.qual := by unfold markUp; split <;> rfl
@[simp] theorem markUp_mon : (markUp s).mon = s.mon := by unfold markUp; split <;> rfl
@[simp] theorem markUp_matcher : (markUp s).matcher = s.matcher := by unfold markUp; split <;> rfl
@[simp] theorem markUp_lines : (markUp s).lines = s.lines := by unfold markUp; split <;> rfl
@[simp] theorem markUp_ldr : (markUp s).ldr = s.ldr := by unfold markUp; split <;> rfl
@[simp] theorem markUp_pins : (markUp s).pins = s.pins := by unfold markUp; split <;> rfl
@[simp] theorem markUp_pending : (markUp s).pending = s.pending := by unfold markUp; split <;> rfl
@[simp] theorem markUp_config : (markUp s).dom.config = s.dom.config := by unfold markUp; split <;> rfl
@[simp] theorem markUp_controller : (markUp s).dom.controller = s.dom.controller := by unfold markUp; split <;> rfl
@[simp] theorem markUp_agentMap : (markUp s).dom.agentMap = s.dom.agentMap := by unfold markUp; split <;> rfl
@[simp] theorem markUp_retained : (markUp s).mgmt.retained = s.mgmt.retained := by unfold markUp; split <;> rfl
@[simp] theorem markUp_serving : (markUp s).mgmt.serving = s.mgmt.serving := by unfold markUp; split <;> rfl

/-! ## recomputeLink -/

@[simp] theorem recomputeLink_eng : (recomputeLink s).eng = s.eng := by
  unfold recomputeLink linkUp; repeat' split
  all_goals first | rfl | exact markUp_eng _
@[simp] theorem recomputeLink_wake : (recomputeLink s).wake = s.wake := by
  unfold recomputeLink linkUp; repeat' split
  all_goals first | rfl | exact markUp_wake _
@[simp] theorem recomputeLink_qual : (recomputeLink s).qual = s.qual := by
  unfold recomputeLink linkUp; repeat' split
  all_goals first | rfl | exact markUp_qual _
@[simp] theorem recomputeLink_mon : (recomputeLink s).mon = s.mon := by
  unfold recomputeLink linkUp; repeat' split
  all_goals first | rfl | exact markUp_mon _
@[simp] theorem recomputeLink_matcher : (recomputeLink s).matcher = s.matcher := by
  unfold recomputeLink linkUp; repeat' split
  all_goals first | rfl | exact markUp_matcher _
@[simp] theorem recomputeLink_lines : (recomputeLink s).lines = s.lines := by
  unfold recomputeLink linkUp; repeat' split
  all_goals first | rfl | exact markUp_lines _
@[simp] theorem recomputeLink_ldr : (recomputeLink s).ldr = s.ldr := by
  unfold recomputeLink linkUp; repeat' split
  all_goals first | rfl | exact markUp_ldr _
@[simp] theorem recomputeLink_pins : (recomputeLink s).pins = s.pins := by
  unfold recomputeLink linkUp; repeat' split
  all_goals first | rfl | exact markUp_pins _
@[simp] theorem recomputeLink_pending : (recomputeLink s).pending = s.pending := by
  unfold recomputeLink linkUp; repeat' split
  all_goals first | rfl | exact markUp_pending _
@[simp] theorem recomputeLink_config : (recomputeLink s).dom.config = s.dom.config := by
  unfold recomputeLink linkUp; repeat' split
  all_goals first | rfl | exact markUp_config _
@[simp] theorem recomputeLink_controller : (recomputeLink s).dom.controller = s.dom.controller := by
  unfold recomputeLink linkUp; repeat' split
  all_goals first | rfl | exact markUp_controller _
@[simp] theorem recomputeLink_agentMap : (recomputeLink s).dom.agentMap = s.dom.agentMap := by
  unfold recomputeLink linkUp; repeat' split
  all_goals first | rfl | exact markUp_agentMap _
@[simp] theorem recomputeLink_retained : (recomputeLink s).mgmt.retained = s.mgmt.retained := by
  unfold recomputeLink linkUp; repeat' split
  all_goals first | rfl | exact markUp_retained _
@[simp] theorem recomputeLink_serving : (recomputeLink s).mgmt.serving = s.mgmt.serving := by
  unfold recomputeLink linkUp; repeat' split
  all_goals first | rfl | exact markUp_serving _

/-! ## writeDomain -/

@[simp] theorem writeDomain_eng (d : Domain) (st : DomState) : (writeDomain d st s).eng = s.eng := by
  simp only [writeDomain]; repeat' split
  all_goals first | rfl | simp
@[simp] theorem writeDomain_wake (d : Domain) (st : DomState) : (writeDomain d st s).wake = s.wake := by
  simp only [writeDomain]; repeat' split
  all_goals first | rfl | simp
@[simp] theorem writeDomain_qual (d : Domain) (st : DomState) : (writeDomain d st s).qual = s.qual := by
  simp only [writeDomain]; repeat' split
  all_goals first | rfl | simp
@[simp] theorem writeDomain_mon (d : Domain) (st : DomState) : (writeDomain d st s).mon = s.mon := by
  simp only [writeDomain]; repeat' split
  all_goals first | rfl | simp
@[simp] theorem writeDomain_matcher (d : Domain) (st : DomState) : (writeDomain d st s).matcher = s.matcher := by
  simp only [writeDomain]; repeat' split
  all_goals first | rfl | simp
@[simp] theorem writeDomain_lines (d : Domain) (st : DomState) : (writeDomain d st s).lines = s.lines := by
  simp only [writeDomain]; repeat' split
  all_goals first | rfl | simp
@[simp] theorem writeDomain_ldr (d : Domain) (st : DomState) : (writeDomain d st s).ldr = s.ldr := by
  simp only [writeDomain]; repeat' split
  all_goals first | rfl | simp
@[simp] theorem writeDomain_pins (d : Domain) (st : DomState) : (writeDomain d st s).pins = s.pins := by
  simp only [writeDomain]; repeat' split
  all_goals first | rfl | simp
@[simp] theorem writeDomain_pending (d : Domain) (st : DomState) : (writeDomain d st s).pending = s.pending := by
  simp only [writeDomain]; repeat' split
  all_goals first | rfl | simp
@[simp] theorem writeDomain_config (d : Domain) (st : DomState) : (writeDomain d st s).dom.config = s.dom.config := by
  simp only [writeDomain]; repeat' split
  all_goals first | rfl | simp
@[simp] theorem writeDomain_controller (d : Domain) (st : DomState) : (writeDomain d st s).dom.controller = s.dom.controller := by
  simp only [writeDomain]; repeat' split
  all_goals first | rfl | simp
@[simp] theorem writeDomain_agentMap (d : Domain) (st : DomState) : (writeDomain d st s).dom.agentMap = s.dom.agentMap := by
  simp only [writeDomain]; repeat' split
  all_goals first | rfl | simp
@[simp] theorem writeDomain_retained (d : Domain) (st : DomState) : (writeDomain d st s).mgmt.retained = s.mgmt.retained := by
  simp only [writeDomain]; repeat' split
  all_goals first | rfl | simp
@[simp] theorem writeDomain_serving (d : Domain) (st : DomState) : (writeDomain d st s).mgmt.serving = s.mgmt.serving := by
  simp only [writeDomain]; repeat' split
  all_goals first | rfl | simp

/-! ## leaveRising -/

@[simp] theorem leaveRising_wake (d : Domain) (left : Departed) : (leaveRising d left s).1.wake = s.wake := rfl
@[simp] theorem leaveRising_qual (d : Domain) (left : Departed) : (leaveRising d left s).1.qual = s.qual := rfl
@[simp] theorem leaveRising_mon (d : Domain) (left : Departed) : (leaveRising d left s).1.mon = s.mon := rfl
@[simp] theorem leaveRising_matcher (d : Domain) (left : Departed) : (leaveRising d left s).1.matcher = s.matcher := rfl
@[simp] theorem leaveRising_lines (d : Domain) (left : Departed) : (leaveRising d left s).1.lines = s.lines := rfl
@[simp] theorem leaveRising_ldr (d : Domain) (left : Departed) : (leaveRising d left s).1.ldr = s.ldr := rfl
@[simp] theorem leaveRising_pins (d : Domain) (left : Departed) : (leaveRising d left s).1.pins = s.pins := rfl
@[simp] theorem leaveRising_pending (d : Domain) (left : Departed) : (leaveRising d left s).1.pending = s.pending := rfl
@[simp] theorem leaveRising_dom (d : Domain) (left : Departed) : (leaveRising d left s).1.dom = s.dom := rfl
@[simp] theorem leaveRising_up (d : Domain) (left : Departed) : (leaveRising d left s).1.up = s.up := rfl
@[simp] theorem leaveRising_down (d : Domain) (left : Departed) : (leaveRising d left s).1.down = s.down := rfl
@[simp] theorem leaveRising_mgmt (d : Domain) (left : Departed) : (leaveRising d left s).1.mgmt = s.mgmt := rfl

end Sys2Proof.Machine
end

