-- ==== Sys2Proof/Laws/Stable.lean ====
section
/-! SUPPORT. The induction over the Engine, packaged once: a property that the primitive writes keep is kept by every
shared operation up to the Monitor. -/

namespace Sys2Proof.Machine

/-- What the Engine's state keeps while members start, run and end: the tables, the platform state, the undo in flight and
what unwinding, a pending abort and a forcing keep for their ends. -/
def SamePhase (x y : Engine) : Prop :=
  x.kept = y.kept ∧ x.platform = y.platform ∧ x.undo = y.undo ∧ x.unwind = y.unwind ∧
    (x.abortPending, x.forcingCause) = (y.abortPending, y.forcingCause)

/-- The primitive writes that the members of a group are run with, and that P survives each of them. -/
structure MemberStable (P : State → Prop) : Prop where
  queueUp   : ∀ f s, P s → P (queueUp f s)
  queueDown : ∀ f s, P s → P (queueDown f s)
  discard   : ∀ n s, P s → P (countDiscarded n s)
  hold      : ∀ (s : State) h, h.length ≤ s.gate.hold.length → P s → P (s.withHold h)
  domain    : ∀ d st s, P s → P (writeDomain d st s)
  cause     : ∀ d c s, P s → P (writeCause d c s)
  eng       : ∀ (s : State) e, SamePhase e s.eng → P s → P (s.withEng e)
  levels    : ∀ (s : State) x, P s → P (s.withLines { s.lines with levels := x })
  ownTaken  : ∀ (s : State) n, P s → P (s.withOwnTaken n)

/-- The further writes of the Engine outside the acceptance of a wake. -/
structure EngineStable (P : State → Prop) : Prop extends MemberStable P where
  permit : ∀ (s : State) b, P s → P (s.withPermit b)
  engine : ∀ (s : State) e, e.kept = s.eng.kept → P s → P (s.withEng e)
  arms   : ∀ (s : State) armed arm, P s → P (s.withWake { s.wake with armed := armed, arm := arm })
  sleep  : ∀ (s : State) q, q.kept = s.qual.kept → q.sleepCount ≤ s.qual.sleepCount → P s → P (s.withQual q)

/-- The further writes of the Wake Unit and of the Rail Monitor. -/
structure Stable (P : State → Prop) : Prop extends EngineStable P where
  fault    : ∀ d x s, P s → P (writeFault d x s)
  wake     : ∀ (s : State) w, w.kept = s.wake.kept → w.suppressed = s.wake.suppressed →
    w.stormCount = s.wake.stormCount → P s → P (s.withWake w)
  storm    : ∀ src s, P s → P (stormStep src s)
  deferral : ∀ c s, P s → P (deferForcing c s)

variable {P : State → Prop}

/-- A fold over a state and a set, whose steps keep P of the state. -/
theorem pair_foldl {α β : Type} (g : State × β → α → State × β) (hg : ∀ p a, P p.1 → P (g p a).1) (l : List α)
    (p : State × β) (hp : P p.1) : P (l.foldl g p).1 := by
  induction l generalizing p with
  | nil => exact hp
  | cons a l ih => exact ih _ (hg p a hp)

/-! ## Members of a group -/

section
variable (h : MemberStable P)
include h

omit h in
/-- A fold of operations that each keep P keeps P. -/
theorem MemberStable.foldl (_ : MemberStable P) {α : Type} (g : State → α → State) (hg : ∀ s a, P s → P (g s a)) (l : List α)
    (s : State) (hs : P s) : P (l.foldl g s) := by
  induction l generalizing s with
  | nil => exact hs
  | cons a l ih => exact ih _ (hg s a hs)

theorem MemberStable.refuseDown (f : Frame) (s : State) (hs : P s) : P (refuseDown f s) := by
  unfold Machine.refuseDown; split <;> [exact h.queueUp _ _ hs; exact h.discard _ _ hs]

theorem MemberStable.dropRecord (lost : HoldRecord → Bool) (s : State) (r : HoldRecord) (hs : P s) : P (dropRecord lost s r) := by
  unfold Machine.dropRecord; split <;> [exact h.discard _ _ hs; exact h.refuseDown _ _ hs]

theorem MemberStable.dropRecords (lost : HoldRecord → Bool) (l : List HoldRecord) (s : State) (hs : P s) :
    P (dropRecords lost l s) := h.foldl (Machine.dropRecord lost) (h.dropRecord lost) _ _ hs

theorem MemberStable.passAt (place : Nat) (lost : HoldRecord → Bool) (l : List HoldRecord) (s : State) (hs : P s) :
    P (passAt place lost l s) := by
  unfold Machine.passAt
  repeat' split
  · exact hs
  · exact h.foldl _ (fun s f => h.queueUp f s) _ _ (h.dropRecords _ _ _ (h.ownTaken _ _ hs))
  · exact h.dropRecords _ _ _ hs

theorem MemberStable.dropAllDown (left : Departed) (s : State) (hs : P s) : P (dropAllDown left s) :=
  h.passAt _ _ _ _ (h.hold _ _ (List.length_filter_le _ _) hs)

theorem MemberStable.depart (x : DomainSet) (left : Departed) (s : State) (hs : P s) : P (depart x left s).1 :=
  h.hold _ _ (List.length_filter_le _ _) hs

theorem MemberStable.reclassify (left : Departed) (s : State) (hs : P s) : P (reclassify left s) :=
  h.passAt _ _ _ _ hs

theorem MemberStable.markUp (s : State) (hs : P s) : P (markUp s) := by
  unfold Machine.markUp
  split
  · exact h.hold _ _ (by simp) hs
  · exact hs

theorem MemberStable.allDomainsOff (s : State) (hs : P s) : P (allDomainsOff s) :=
  h.foldl _ (fun s d => h.domain d .off s) _ _ hs

theorem MemberStable.recordReport (r : Report) (s : State) (hs : P s) : P (recordReport r s) := h.eng s _ ⟨rfl, rfl, rfl, rfl, rfl⟩ hs

theorem MemberStable.makeReport (r : Report) (s : State) (hs : P s) : P (makeReport r s) :=
  h.queueUp _ _ (h.recordReport r s hs)

theorem MemberStable.withRising (s : State) (r : DomainSet) (hs : P s) : P (s.withRising r) := h.eng s _ ⟨rfl, rfl, rfl, rfl, rfl⟩ hs

theorem MemberStable.leaveRising (d : Domain) (left : Departed) (s : State) (hs : P s) : P (leaveRising d left s).1 :=
  h.depart _ _ _ (h.withRising _ _ hs)

theorem MemberStable.replaceRising (new : DomainSet) (left : Departed) (s : State) (hs : P s) :
    P (replaceRising new left s).1 := h.depart _ _ _ (h.withRising _ _ hs)

theorem MemberStable.countStarted (s : State) (hs : P s) : P (countStarted s) := h.eng s _ ⟨rfl, rfl, rfl, rfl, rfl⟩ hs

theorem MemberStable.sendOrder (d : Domain) (a : Addr) (t : OrdState) (p : Option Nat) (s : State) (hs : P s) :
    P (sendOrder d a t p s) := h.queueDown _ _ (h.eng s _ ⟨rfl, rfl, rfl, rfl, rfl⟩ hs)

theorem MemberStable.endRising (a : Action) (left : Departed) (s : State) (hs : P s) : P (endRising a left s).1 := by
  unfold Machine.endRising
  repeat' split
  all_goals first | exact hs | exact h.leaveRising _ _ _ hs

theorem MemberStable.dropMember (m : Member) (s : State) (hs : P s) : P (dropMember m s) := h.eng s _ ⟨rfl, rfl, rfl, rfl, rfl⟩ hs

theorem MemberStable.pushUndo (m : Member) (s : State) (hs : P s) : P (pushUndo m s) := by
  unfold Machine.pushUndo
  repeat' split
  all_goals first | exact hs | exact h.eng s _ ⟨rfl, rfl, rfl, rfl, rfl⟩ hs

theorem MemberStable.completeMember (m : Member) (left : Departed) (s : State) (hs : P s) : P (completeMember m left s).1 := by
  simp only [Machine.completeMember]
  refine h.endRising _ _ _ (h.dropMember _ _ (h.pushUndo _ _ ?_))
  split <;> [exact h.domain _ _ _ hs; exact hs]

theorem MemberStable.failMember (m : Member) (d : Domain) (st : DomState) (c : FaultCause) (left : Departed) (s : State)
    (hs : P s) : P (failMember m d st c left s).1 :=
  h.endRising _ _ _ (h.dropMember _ _ (h.cause _ _ _ (h.domain _ _ _ hs)))

theorem MemberStable.abandonMember (p : State × Departed) (m : Member) (hs : P p.1) : P (abandonMember p m).1 := by
  simp only [Machine.abandonMember]
  refine h.endRising _ _ _ ?_
  split <;> first | exact h.domain _ _ _ (h.dropMember _ _ hs) | exact h.dropMember _ _ hs

theorem MemberStable.abandonGroup (left : Departed) (s : State) (hs : P s) : P (abandonGroup left s).1 :=
  pair_foldl _ h.abandonMember _ _ hs

theorem MemberStable.addMember (m : Member) (s : State) (hs : P s) : P (addMember m s) := h.eng s _ ⟨rfl, rfl, rfl, rfl, rfl⟩ hs

theorem MemberStable.driveLine (l : EnLine) (high : Bool) (s : State) (hs : P s) : P (driveLine l high s) := h.levels s _ hs

theorem MemberStable.failAtStart (m : Member) (d : Domain) (c : FaultCause) (left : Departed) (s : State) (hs : P s) :
    P (failAtStart m d c left s).state := h.failMember _ _ _ _ _ _ hs

theorem MemberStable.completeOrRun (b : Bool) (m : Member) (left : Departed) (s : State) (hs : P s) :
    P (completeOrRun b m left s).state := by
  unfold Machine.completeOrRun
  split <;> [exact h.completeMember _ _ _ hs; exact h.addMember _ _ hs]

theorem MemberStable.startMember (q : PlanStep) (left : Departed) (s : State) (hs : P s) : P (startMember q left s).state := by
  have hc := h.countStarted s hs
  simp only [Machine.startMember]
  repeat' split
  all_goals first
    | exact h.failAtStart _ _ _ _ _ hc
    | exact h.sendOrder _ _ _ _ _ (h.addMember _ _ hc)
    | exact h.completeOrRun _ _ _ _ (h.driveLine _ _ _ hc)
    | exact h.completeOrRun _ _ _ _ hc

theorem MemberStable.runSteps (l : List PlanStep) (left : Departed) (s : State) (hs : P s) : P (runSteps l left s).state := by
  induction l generalizing left s with
  | nil => exact hs
  | cons q l ih =>
    have hq := h.startMember q left s hs
    simp only [Machine.runSteps]
    repeat' split
    all_goals first
      | exact h.abandonGroup _ _ hq
      | exact ih _ _ hq
      | exact hq

theorem MemberStable.groupTest (p : State × Departed) (hs : P p.1) : P (groupTest p).state := by
  unfold Machine.groupTest
  repeat' split
  all_goals first | exact hs | exact h.runSteps _ _ _ hs

theorem MemberStable.sendResume (s : State) (hs : P s) : P (sendResume s) := by
  unfold Machine.sendResume; split <;> [exact h.queueUp _ _ hs; exact hs]

theorem MemberStable.undoLeavesRising (a : UndoAction) (l : List UndoRecord) (left : Departed) (s : State) (hs : P s) :
    P (undoLeavesRising a l left s).1 := by
  unfold Machine.undoLeavesRising
  repeat' split
  all_goals first | exact hs | exact h.leaveRising _ _ _ hs

theorem MemberStable.undoLineDone (a : UndoAction) (s : State) (hs : P s) : P (undoLineDone a s) := by
  unfold Machine.undoLineDone; split <;> first | exact h.domain _ _ _ hs | exact hs

end

/-! ## The Engine outside the acceptance of a wake -/

section
variable (h : EngineStable P)
include h

theorem EngineStable.permitAtWake (s : State) (hs : P s) : P (permitAtWake s) := h.markUp _ (h.permit _ _ hs)

theorem EngineStable.withPlatform (s : State) (p : Platform) (hs : P s) : P (s.withPlatform p) := h.engine s _ rfl hs

theorem EngineStable.setArm (s : State) (hs : P s) : P (setArm s) := h.arms s _ _ hs

theorem EngineStable.disarm (s : State) (hs : P s) : P (disarm s) := h.arms s _ _ hs

theorem EngineStable.emptyArmed (s : State) (hs : P s) : P (emptyArmed s) := h.arms s _ _ hs

theorem EngineStable.computeArmed (f : Sleep) (s : State) (hs : P s) : P (computeArmed f s) := h.arms s _ _ hs

theorem EngineStable.startSleepCount (s : State) (hs : P s) : P (startSleepCount s) := h.sleep s _ rfl (Nat.zero_le _) hs

theorem EngineStable.stopSleepCount (s : State) (hs : P s) : P (stopSleepCount s) := h.sleep s _ rfl (Nat.le_refl _) hs

theorem EngineStable.resumeSleepCount (s : State) (hs : P s) : P (resumeSleepCount s) := h.sleep s _ rfl (Nat.le_refl _) hs

theorem EngineStable.clearWork (s : State) (hs : P s) : P (clearWork s) := h.engine s _ rfl hs

theorem EngineStable.cancelRunning (s : State) (hs : P s) : P (cancelRunning s) :=
  h.foldl _ (fun s d => h.domain d .unknown s) _ _ (h.clearWork s hs)

theorem EngineStable.reachSoftoff (s : State) (hs : P s) : P (reachSoftoff s) :=
  h.startSleepCount _ (h.computeArmed _ _ (h.setArm _ (h.engine s _ rfl hs)))

theorem EngineStable.reportForced (s : State) (hs : P s) : P (reportForced s) :=
  h.engine _ _ rfl (h.makeReport _ _ hs)

theorem EngineStable.forcedOffEnd (s : State) (hs : P s) : P (forcedOffEnd s) := h.reportForced _ (h.reachSoftoff _ hs)

theorem EngineStable.directSafeLoad (s : State) (hs : P s) : P (directSafeLoad s) :=
  h.reportForced _ (h.reachSoftoff _ (h.allDomainsOff _ (h.levels s _ hs)))

theorem EngineStable.settleForcing (r : Run) (hs : P r.state) : P (settleForcing r).1 := by
  unfold Machine.settleForcing; split <;> first | exact h.forcedOffEnd _ hs | exact hs

theorem EngineStable.startForcedOff (s : State) (hs : P s) : P (startForcedOff s).1 := by
  unfold Machine.startForcedOff
  split
  · exact h.directSafeLoad _ hs
  · exact h.settleForcing _ (h.runSteps _ _ _ (h.engine s _ rfl hs))

theorem EngineStable.stopIfRest (s : State) (hs : P s) : P (stopIfRest s) := by
  unfold Machine.stopIfRest; split <;> [exact h.stopSleepCount _ hs; exact hs]

theorem EngineStable.beginForcing (c : ForcingCause) (left : Departed) (s : State) (hs : P s) :
    P (beginForcing c left s).1 :=
  h.startForcedOff _ (h.disarm _ (h.permit _ _ (h.dropAllDown _ _ (h.withRising _ _ (h.withPlatform _ _
    (h.cancelRunning _ (h.stopIfRest _ (h.engine s _ rfl hs))))))))

theorem EngineStable.wakeEnd (f : Sleep) (left : Departed) (s : State) (hs : P s) : P (wakeEnd f left s).1 := by
  simp only [Machine.wakeEnd]
  split
  · exact h.permitAtWake _ (h.sendResume _ (h.recordReport _ _ (h.replaceRising _ _ _ (h.engine s _ rfl hs))))
  · exact h.beginForcing _ _ _ hs

theorem EngineStable.settleWaking (f : Sleep) (r : Run) (hs : P r.state) : P (settleWaking f r).1 := by
  unfold Machine.settleWaking
  split <;> first | exact h.wakeEnd _ _ _ hs | exact h.beginForcing _ _ _ hs | exact hs

theorem EngineStable.refuseOffWake (i : Option Nat) (s : State) (hs : P s) : P (refuseOffWake i s) :=
  h.resumeSleepCount _ (h.computeArmed _ _ (h.setArm _ (h.makeReport _ _ hs)))

theorem EngineStable.withUndo (s : State) (u : Option UndoRun) (l : List UndoRecord) (hs : P s) : P (s.withUndo u l) :=
  h.engine s _ rfl hs

theorem EngineStable.unwindEnd (left : Departed) (s : State) (hs : P s) : P (unwindEnd left s).1 :=
  h.makeReport _ _ (h.replaceRising _ _ _ (h.engine s _ rfl hs))

theorem EngineStable.unwindFrom (l : List UndoRecord) (left : Departed) (s : State) (hs : P s) : P (unwindFrom l left s).1 := by
  induction l generalizing left s with
  | nil => exact h.unwindEnd left s hs
  | cons r l ih =>
    have h0 := h.withUndo s none l hs
    simp only [Machine.unwindFrom]
    repeat' split
    · exact h.sendOrder _ _ _ _ _ (h.withUndo _ _ _ h0)
    · exact ih _ _ (h.undoLeavesRising _ _ _ _ (h.cause _ _ _ (h.domain _ _ _ h0)))
    · exact ih _ _ (h.undoLeavesRising _ _ _ _ (h.undoLineDone _ _ (h.driveLine _ _ _ h0)))
    · exact h.withUndo _ _ _ (h.driveLine _ _ _ h0)

theorem EngineStable.beginUnwinding (t : Sleep) (i : UnwindInfo) (left : Departed) (s : State) (hs : P s) :
    P (beginUnwinding t i left s).1 :=
  h.unwindFrom _ _ _ (h.replaceRising _ _ _ (h.emptyArmed _ (h.engine s _ rfl hs)))

theorem EngineStable.undoEnded (u : UndoRun) (s : State) (hs : P s) : P (undoEnded u s).1 :=
  h.unwindFrom _ _ _ (h.undoLeavesRising _ _ _ _ (h.engine s _ rfl hs))

end

/-! ## Wakes, latch events and the Monitor -/

section
variable (h : Stable P)
include h

theorem Stable.acceptWake (f : Sleep) (r : WakeReason) (left : Departed) (s : State) (hs : P s) :
    P (acceptWake f r left s).1 := by
  have h0 : P (captureContext f r s) := h.wake s _ rfl rfl rfl hs
  have h1 := h.stopSleepCount _ (h.disarm _ h0)
  simp only [Machine.acceptWake]
  split
  · apply h.settleWaking
    apply h.runSteps
    exact h.engine _ _ rfl h1
  · split
    · exact h.refuseOffWake _ _ h1
    all_goals exact h.beginForcing _ _ _ h1

theorem Stable.acceptLatched (f : Sleep) (left : Departed) (s : State) (hs : P s) : P (acceptLatched f left s).1 := by
  unfold Machine.acceptLatched; split <;> [exact h.acceptWake _ _ _ _ hs; exact hs]

theorem Stable.entryEnd (t : Sleep) (left : Departed) (s : State) (hs : P s) : P (entryEnd t left s).1 :=
  h.acceptLatched _ _ _ (h.makeReport _ _ (h.startSleepCount _ (h.setArm _ (h.engine _ _ rfl
    (h.replaceRising _ _ _ (h.engine s _ rfl hs))))))

theorem Stable.settle (r : Run) (hs : P r.state) : P (settle r).1 := by
  simp only [Machine.settle]
  repeat' split
  all_goals first
    | exact hs
    | exact h.entryEnd _ _ _ hs
    | exact h.wakeEnd _ _ _ hs
    | exact h.forcedOffEnd _ hs
    | exact h.beginUnwinding _ _ _ _ hs
    | exact h.beginForcing _ _ _ hs

theorem Stable.memberCompleted (m : Member) (s : State) (hs : P s) : P (memberCompleted m s).1 :=
  h.settle _ (h.groupTest _ (h.completeMember _ _ _ hs))

theorem Stable.memberFailed (m : Member) (d : Domain) (st : DomState) (c : FaultCause) (s : State) (hs : P s) :
    P (memberFailed m d st c s).1 := by
  have hf := h.failMember m d st c (.start s) s hs
  simp only [Machine.memberFailed]
  split
  · exact h.settle _ (h.abandonGroup _ _ hf)
  · exact h.settle _ (h.groupTest _ hf)

theorem Stable.forcingEvent (c : ReportCause) (left : Departed) (s : State) (hs : P s) : P (forcingEvent c left s).1 := by
  unfold Machine.forcingEvent
  repeat' split
  all_goals first | exact hs | exact h.deferral _ _ hs | exact h.beginForcing _ _ _ hs

theorem Stable.latchBit (src : Source) (s : State) (hs : P s) : P (latchBit src s) := by
  simp only [Machine.latchBit]
  split
  · exact hs
  · exact h.queueUp _ _ (h.wake s _ rfl rfl rfl hs)

theorem Stable.armedLatch (src : Source) (left : Departed) (s : State) (hs : P s) : P (armedLatch src left s).1 := by
  unfold Machine.armedLatch
  repeat' split
  all_goals first | exact hs | exact h.acceptLatched _ _ _ hs | exact h.engine s _ rfl hs

theorem Stable.armStep (src : Source) (left : Departed) (s : State) (hs : P s) : P (armStep src left s).1 := by
  unfold Machine.armStep; split <;> [exact h.armedLatch _ _ _ hs; exact hs]

theorem Stable.latchFrom (src : Source) (p : State × Departed) (hs : P p.1) : P (latchFrom src p).1 :=
  h.armStep _ _ _ (h.storm _ _ (h.latchBit _ _ hs))

theorem Stable.latchEvent (src : Source) (s : State) (hs : P s) : P (latchEvent src s).1 := h.latchFrom src _ hs

theorem Stable.relatch (c : SourceSet) (p : State × Departed) (hs : P p.1) : P (relatch c p).1 :=
  pair_foldl _ (fun p k hs => by split <;> [exact h.latchFrom _ _ hs; exact hs]) _ _ hs

theorem Stable.latchRail (d : Domain) (p : State × Departed) (hs : P p.1) : P (latchRail d p).1 := by
  have h1 := h.cause d .pgLost _ (h.fault d .latched _ hs)
  simp only [Machine.latchRail]
  split <;> [exact h.queueUp _ _ h1; exact h.forcingEvent _ _ _ h1]

theorem Stable.monitorFrom (n : Nat) (p : State × Departed) (hs : P p.1) : P (monitorFrom n p).1 := by
  induction n generalizing p with
  | zero => exact hs
  | succ n ih => unfold Machine.monitorFrom; split <;> [exact ih _ (h.latchRail _ _ hs); exact hs]

theorem Stable.endEvent (p : State × Departed) (hs : P p.1) : P (endEvent p) := h.reclassify _ _ (h.monitorFrom 12 p hs)

theorem Stable.monitor (s : State) (hs : P s) : P (monitor s) := h.endEvent _ hs

end

end Sys2Proof.Machine
end

