-- ==== Sys2Proof/Laws/Invariants.lean ====
section
/-! SUPPORT. The laws of Safety.lean are kept by the primitive writes of the Engine, the Wake Unit and the Monitor, so by
`Stable` every shared operation built from them keeps them. -/

namespace Sys2Proof.Machine

/-! ## Capacities and ranges -/

theorem Bounded.saturated {s : State} (h : s.Bounded) (n : Nat) : (countDiscarded n s).Bounded :=
  { h with discarded := Nat.min_le_left _ _ }

theorem bounded_queueUp (f : Frame) (s : State) (h : s.Bounded) : (queueUp f s).Bounded := by
  unfold queueUp
  repeat' split
  · refine { h with upOwn := ?_ }
    show (s.up.own ++ [f]).length ≤ 24
    rename_i hlt
    have : s.upstreamPlaces ≤ 24 := by unfold State.upstreamPlaces; split <;> omega
    simp; omega
  · exact Bounded.saturated h 1
  · exact h

theorem bounded_queueDown (f : Frame) (s : State) (h : s.Bounded) : (queueDown f s).Bounded := by
  unfold queueDown
  split
  · refine { h with downOwn := ?_ }
    show (s.down.own ++ [f]).length ≤ 24
    simp; omega
  · exact Bounded.saturated h 1

theorem bounded_withHold (s : State) (l : List HoldRecord) (hl : l.length ≤ s.gate.hold.length) (h : s.Bounded) :
    (s.withHold l).Bounded := { h with hold := Nat.le_trans hl h.hold }

theorem bounded_markUp (s : State) (h : s.Bounded) : (markUp s).Bounded := by
  unfold markUp; split <;> [exact bounded_withHold _ _ (by simp) h; exact h]

theorem bounded_recomputeLink (s : State) (h : s.Bounded) : (recomputeLink s).Bounded := by
  unfold recomputeLink
  repeat' split
  all_goals first
    | exact h
    | exact bounded_markUp (s.withLink true) { h with }
    | exact { h with upOwn := Nat.zero_le _, upOutput := Nat.zero_le _, discarded := Nat.min_le_left _ _ }

theorem bounded_writeDomain (d : Domain) (st : DomState) (s : State) (h : s.Bounded) : (writeDomain d st s).Bounded := by
  have h1 : (s.withStatus d { s.dom.status[d] with recorded := st }).Bounded := { h with }
  simp only [writeDomain]
  repeat' split
  all_goals first
    | exact bounded_recomputeLink _ h1
    | exact h1
    | exact bounded_withHold _ _ (by simp) (bounded_recomputeLink _ h1)
    | exact bounded_withHold _ _ (by simp) h1

theorem bounded_stormStep (src : Source) (s : State) (h : s.Bounded) : (stormStep src s).Bounded := by
  unfold stormStep suppress
  repeat' split
  all_goals first | exact h | exact { h with } | exact bounded_queueUp _ _ { h with }

theorem bounded_deferForcing (c : ReportCause) (s : State) (h : s.Bounded) : (deferForcing c s).Bounded := by
  unfold deferForcing; split <;> exact { h with }

/-- Every operation up to the Monitor keeps the capacities and ranges. -/
theorem bounded_stable : Stable State.Bounded where
  queueUp := bounded_queueUp
  queueDown := bounded_queueDown
  discard n _ h := Bounded.saturated h n
  hold := bounded_withHold
  domain := bounded_writeDomain
  cause _ _ _ h := { h with }
  eng _ _ _ h := { h with }
  levels _ _ h := { h with }
  ownTaken s n h := { h with upOwn := Nat.le_trans (List.length_take_le' _ _) h.upOwn }
  permit _ _ h := { h with }
  engine _ _ _ h := { h with }
  arms _ _ _ h := { h with }
  sleep s q hk hc h := by
    have e1 : q.wakeTimer = s.qual.wakeTimer := (congrArg Qualifiers.wakeTimer hk :)
    have e2 : q.divider = s.qual.divider := (congrArg Qualifiers.divider hk :)
    exact { h with
      wakeTimer := by show q.wakeTimer ≤ _; rw [e1]; exact h.wakeTimer
      sleepCount := Nat.le_trans hc h.sleepCount
      divider := by show q.divider ≤ _; rw [e2]; exact h.divider }
  fault _ _ _ h := { h with }
  wake _ _ _ _ _ h := { h with }
  storm := bounded_stormStep
  deferral := bounded_deferForcing

/-! ## Source 0 -/

theorem SourceZeroHeld.of_wake {s t : State} (h : s.SourceZeroHeld) (hw : t.wake = s.wake) : t.SourceZeroHeld where
  enabled := by rw [hw]; exact h.enabled
  standby := by rw [hw]; exact h.standby
  hibernate := by rw [hw]; exact h.hibernate
  softoff := by rw [hw]; exact h.softoff
  suppressed := by rw [hw]; exact h.suppressed
  count := by simp only [hw]; exact h.count
  thresholdLow := by rw [hw]; exact h.thresholdLow
  thresholdHigh := by rw [hw]; exact h.thresholdHigh
  counts := by simp only [hw]; exact h.counts

/-- A count that the Storm Monitor writes lies in its range, and source 0 has none. -/
theorem stormCount_set {s : State} (h : s.SourceZeroHeld) (src : Source) (n : Nat) (h0 : src ≠ 0) (hn : n ≤ 255) :
    (s.wake.stormCount.set src n)[0] = 0 ∧ ∀ k : Source, (s.wake.stormCount.set src n)[k] ≤ 255 := by
  have hv : src.val ≠ 0 := fun e => h0 (Fin.ext e)
  constructor
  · rw [Vector.getElem_set_ne _ _ hv]; exact h.count
  · intro k
    show (s.wake.stormCount.set src.val n)[k.val] ≤ 255
    rw [Vector.getElem_set]
    split <;> [exact hn; exact h.counts k]

theorem sourceZero_stormStep (src : Source) (s : State) (h : s.SourceZeroHeld) : (stormStep src s).SourceZeroHeld := by
  unfold stormStep
  by_cases hc : s.stormCounts src = true
  · have h0 : src ≠ 0 := by
      simp only [State.stormCounts, Bool.and_eq_true, decide_eq_true_eq] at hc
      exact hc.1.1.1.2
    rw [if_pos hc]
    split
    · obtain ⟨a, b⟩ := stormCount_set h src s.wake.threshold h0 h.thresholdHigh
      refine SourceZeroHeld.of_wake (s := s.withWake _) ?_ (queueUp_wake _ _)
      refine { h with suppressed := ?_, count := a, counts := b }
      have hv : src.val ≠ 0 := fun e => h0 (Fin.ext e)
      show (s.wake.suppressed ||| BitVec.twoPow 16 src.val).getLsbD 0 = false
      rw [BitVec.getLsbD_or, h.suppressed, BitVec.getLsbD_twoPow]
      simp [hv]
    · rename_i hlt
      obtain ⟨a, b⟩ := stormCount_set h src (s.wake.stormCount[src] + 1) h0 (by have := h.thresholdHigh; omega)
      exact { h with count := a, counts := b }
  · rw [if_neg hc]; exact h

/-- Every operation up to the Monitor keeps source 0's place and the ranges of threshold and counts. -/
theorem sourceZero_stable : Stable State.SourceZeroHeld where
  queueUp f s h := SourceZeroHeld.of_wake h (queueUp_wake s f)
  queueDown f s h := SourceZeroHeld.of_wake h (queueDown_wake s f)
  discard _ _ h := { h with }
  hold _ _ _ h := { h with }
  domain d st s h := SourceZeroHeld.of_wake h (writeDomain_wake s d st)
  cause _ _ _ h := { h with }
  eng _ _ _ h := { h with }
  levels _ _ h := { h with }
  ownTaken _ _ h := { h with }
  permit _ _ h := { h with }
  engine _ _ _ h := { h with }
  arms _ _ _ h := { h with }
  sleep _ _ _ _ h := { h with }
  fault _ _ _ h := { h with }
  wake s w hk hs hc h := by
    have e1 : w.enable = s.wake.enable := (congrArg WakeUnit.enable hk :)
    have e2 : w.maskStandby = s.wake.maskStandby := (congrArg WakeUnit.maskStandby hk :)
    have e3 : w.maskHibernate = s.wake.maskHibernate := (congrArg WakeUnit.maskHibernate hk :)
    have e4 : w.maskSoftoff = s.wake.maskSoftoff := (congrArg WakeUnit.maskSoftoff hk :)
    have e5 : w.threshold = s.wake.threshold := (congrArg WakeUnit.threshold hk :)
    exact {
      enabled := by show w.enable.getLsbD 0 = true; rw [e1]; exact h.enabled
      standby := by show w.maskStandby.getLsbD 0 = false; rw [e2]; exact h.standby
      hibernate := by show w.maskHibernate.getLsbD 0 = false; rw [e3]; exact h.hibernate
      softoff := by show w.maskSoftoff.getLsbD 0 = false; rw [e4]; exact h.softoff
      suppressed := by show w.suppressed.getLsbD 0 = false; rw [hs]; exact h.suppressed
      count := by show w.stormCount[0] = 0; simp only [hc]; exact h.count
      thresholdLow := by show 1 ≤ w.threshold; rw [e5]; exact h.thresholdLow
      thresholdHigh := by show w.threshold ≤ 255; rw [e5]; exact h.thresholdHigh
      counts := fun k => by show w.stormCount[k] ≤ 255; simp only [hc]; exact h.counts k }
  storm := sourceZero_stormStep
  deferral _ s h := by unfold deferForcing; split <;> exact { h with }

/-! ## The upstream link -/

/-- The link state follows the controller domain, and nothing waits to be sent on a link that is DOWN. -/
structure State.LinkLaw (s : State) : Prop where
  right : s.LinkRight
  quiet : s.QuietWhenDown

/-- The link law is a property of the domain table, of the Upstream Port and of whether a loading holds the link. -/
theorem State.LinkLaw.congr {s t : State} (h : s.LinkLaw) (hl : t.dom.linkUp = s.dom.linkUp)
    (hr : t.recorded t.dom.controller = s.recorded s.dom.controller) (hh : t.linkHeld = s.linkHeld)
    (ho : t.up.own = s.up.own) (ht : t.up.output = s.up.output) (hf : t.up.forwarded = s.up.forwarded) : t.LinkLaw where
  right := by unfold State.LinkRight; rw [hl, hr, hh]; exact h.right
  quiet := by unfold State.QuietWhenDown; rw [hl, ho, ht, hf]; exact h.quiet

theorem linkLaw_queueUp (f : Frame) (s : State) (h : s.LinkLaw) : (queueUp f s).LinkLaw := by
  unfold queueUp
  by_cases hl : s.dom.linkUp = true
  · rw [if_pos hl]
    split
    · exact ⟨h.right, fun hd => by rw [show (s.withUp { s.up with own := s.up.own ++ [f] }).dom.linkUp = s.dom.linkUp from rfl, hl] at hd; exact absurd hd (by decide)⟩
    · exact h.congr rfl rfl rfl rfl rfl rfl
  · rw [if_neg hl]; exact h

theorem linkLaw_markUp (s : State) (h : s.LinkLaw) : (markUp s).LinkLaw := by
  unfold markUp; split <;> [exact h.congr rfl rfl rfl rfl rfl rfl; exact h]

/-- A recomputation of the link makes it follow the controller domain, whatever it was before. -/
theorem linkRight_recomputeLink (s : State) (h : s.linkHeld = true → s.dom.linkUp = true) : (recomputeLink s).LinkRight := by
  have hm : ∀ t : State, (markUp t).dom = t.dom ∧ (markUp t).ldr = t.ldr := by
    intro t; unfold markUp; split <;> exact ⟨rfl, rfl⟩
  unfold recomputeLink State.LinkRight
  by_cases hh : s.linkHeld = true
  · simp only [hh, if_true]; exact h hh
  · have hh' : s.linkHeld = false := by simpa using hh
    have hmu : (linkUp s).linkHeld = false := by
      unfold State.linkHeld linkUp; rw [(hm _).2]; exact hh'
    simp only [hh', Bool.false_eq_true, if_false]
    by_cases hr : s.recorded s.dom.controller = .on
    · simp only [hr, if_true]
      by_cases hl : s.dom.linkUp = true
      · simp [hl, hh', hr]
      · have hl' : s.dom.linkUp = false := by simpa using hl
        have hrec : (linkUp s).recorded (linkUp s).dom.controller = .on := by
          unfold State.recorded linkUp; simp only [(hm _).1]; exact hr
        have hup : (linkUp s).dom.linkUp = true := by unfold linkUp; rw [(hm _).1]; rfl
        simp [hl', hmu, hrec, hup]
    · simp only [hr, if_false]
      by_cases hl : s.dom.linkUp = true
      · simp only [hl, if_true]
        rw [if_neg (show ¬ (linkDown s).linkHeld = true from hh)]
        show false = decide (s.recorded s.dom.controller = .on)
        simp [hr]
      · have hl' : s.dom.linkUp = false := by simpa using hl
        simp [hl', hh', hr]

/-- A recomputation of the link leaves nothing waiting on a link that it takes DOWN. -/
theorem quiet_recomputeLink (s : State) (h : s.QuietWhenDown) : (recomputeLink s).QuietWhenDown := by
  unfold recomputeLink
  repeat' split
  · exact h
  · exact h
  · unfold linkUp markUp
    split <;> exact fun hd => absurd (show true = false from hd) Bool.noConfusion
  · exact fun _ => ⟨rfl, rfl, rfl⟩
  · exact h

theorem linkLaw_writeDomain (d : Domain) (st : DomState) (s : State) (h : s.LinkLaw) : (writeDomain d st s).LinkLaw := by
  have hheld : s.linkHeld = true → s.dom.linkUp = true := by
    intro hh; have := h.right; unfold State.LinkRight at this; rw [if_pos hh] at this; exact this
  have h1 : (if (s.withStatus d { s.dom.status[d] with recorded := st }).dom.controller = d then
      recomputeLink (s.withStatus d { s.dom.status[d] with recorded := st })
      else s.withStatus d { s.dom.status[d] with recorded := st }).LinkLaw := by
    split
    · exact ⟨linkRight_recomputeLink _ hheld, quiet_recomputeLink _ h.quiet⟩
    · rename_i hne
      refine h.congr rfl ?_ rfl rfl rfl rfl
      have hne' : d.val ≠ s.dom.controller.val := fun e => hne (Fin.ext e.symm)
      show ((s.dom.status.set d.val _)[s.dom.controller.val]).recorded = (s.dom.status[s.dom.controller.val]).recorded
      rw [Vector.getElem_set_ne _ _ hne']
  simp only [writeDomain]
  split
  · exact State.LinkLaw.congr h1 rfl rfl rfl rfl rfl rfl
  · exact h1

/-- A write to a status record that keeps the recorded state keeps the link law. -/
theorem linkLaw_withStatus (d : Domain) (x : DomainStatus) (s : State) (hx : x.recorded = s.dom.status[d].recorded)
    (h : s.LinkLaw) : (s.withStatus d x).LinkLaw := by
  refine h.congr rfl ?_ rfl rfl rfl rfl
  show ((s.dom.status.set d.val x)[s.dom.controller.val]).recorded = (s.dom.status[s.dom.controller.val]).recorded
  rw [Vector.getElem_set]
  split
  · rename_i e
    rw [hx]; simp only [Fin.getElem_fin, e]
  · rfl

/-- Every operation up to the Monitor keeps the link law. -/
theorem linkLaw_stable : Stable State.LinkLaw where
  queueUp := linkLaw_queueUp
  queueDown f s h := by unfold queueDown; split <;> exact h.congr rfl rfl rfl rfl rfl rfl
  discard _ _ h := h.congr rfl rfl rfl rfl rfl rfl
  hold _ _ _ h := h.congr rfl rfl rfl rfl rfl rfl
  domain := linkLaw_writeDomain
  cause d c s h := linkLaw_withStatus d _ s rfl h
  eng _ _ _ h := h.congr rfl rfl rfl rfl rfl rfl
  levels _ _ h := h.congr rfl rfl rfl rfl rfl rfl
  ownTaken s n h := ⟨h.right, fun hd => by
    obtain ⟨ho, hr⟩ := h.quiet hd
    exact ⟨by show s.up.own.take n = []; rw [ho]; exact List.take_nil, hr⟩⟩
  permit _ _ h := h.congr rfl rfl rfl rfl rfl rfl
  engine _ _ _ h := h.congr rfl rfl rfl rfl rfl rfl
  arms _ _ _ h := h.congr rfl rfl rfl rfl rfl rfl
  sleep _ _ _ _ h := h.congr rfl rfl rfl rfl rfl rfl
  fault d x s h := linkLaw_withStatus d _ s rfl h
  wake _ _ _ _ _ h := h.congr rfl rfl rfl rfl rfl rfl
  storm src s h := by
    unfold stormStep suppress
    repeat' split
    · exact linkLaw_queueUp _ _ (h.congr rfl rfl rfl rfl rfl rfl)
    · exact h.congr rfl rfl rfl rfl rfl rfl
    · exact h
  deferral c s h := by
    unfold deferForcing
    split
    · rename_i l hl
      refine h.congr rfl rfl ?_ rfl rfl rfl
      unfold State.linkHeld; rw [hl]; rfl
    · exact h

end Sys2Proof.Machine
end

