-- ==== Sys2Proof/Laws/Kept.lean ====
section
/-! SUPPORT. Every shared operation up to the Monitor leaves alone what `State.kept` keeps: one lemma for each. -/

namespace Sys2Proof.Machine

/-- A fold of operations that each leave `kept` alone leaves it alone. -/
theorem foldl_kept {α : Type} (g : State → α → State) (h : ∀ s a, (g s a).kept = s.kept) (l : List α) (s : State) :
    (l.foldl g s).kept = s.kept := by
  induction l generalizing s with
  | nil => rfl
  | cons a l ih => rw [List.foldl_cons, ih, h]

/-! ## Ops -/

@[simp] theorem countDiscarded_kept (n : Nat) (s : State) : (countDiscarded n s).kept = s.kept := rfl

@[simp] theorem queueUp_kept (f : Frame) (s : State) : (queueUp f s).kept = s.kept := by
  unfold queueUp; split <;> [split <;> rfl; rfl]

@[simp] theorem queueResult_kept (f : Frame) (s : State) : (queueResult f s).kept = s.kept := by
  unfold queueResult; split <;> [split <;> rfl; rfl]

@[simp] theorem queueDown_kept (f : Frame) (s : State) : (queueDown f s).kept = s.kept := by
  unfold queueDown; split <;> rfl

@[simp] theorem withGate_kept (s : State) (x : Gate) : (s.withGate x).kept = s.kept := rfl
@[simp] theorem withHold_kept (s : State) (x : List HoldRecord) : (s.withHold x).kept = s.kept := rfl
@[simp] theorem withPermit_kept (s : State) (x : Bool) : (s.withPermit x).kept = s.kept := rfl
@[simp] theorem withLink_kept (s : State) (x : Bool) : (s.withLink x).kept = s.kept := rfl
@[simp] theorem withStatus_kept (s : State) (d : Domain) (x : DomainStatus) : (s.withStatus d x).kept = s.kept := rfl
@[simp] theorem withPlatform_kept (s : State) (x : Platform) : (s.withPlatform x).kept = s.kept := rfl
@[simp] theorem withRising_kept (s : State) (x : DomainSet) : (s.withRising x).kept = s.kept := rfl

@[simp] theorem refuseDown_kept (f : Frame) (s : State) : (refuseDown f s).kept = s.kept := by
  unfold refuseDown; split <;> simp

@[simp] theorem dropRecord_kept (lost : HoldRecord → Bool) (s : State) (r : HoldRecord) :
    (dropRecord lost s r).kept = s.kept := by
  unfold dropRecord; split <;> [rfl; exact refuseDown_kept _ _]

@[simp] theorem dropRecords_kept (lost : HoldRecord → Bool) (l : List HoldRecord) (s : State) :
    (dropRecords lost l s).kept = s.kept := foldl_kept (dropRecord lost) (fun s r => dropRecord_kept lost s r) _ _

@[simp] theorem withOwnTaken_kept (s : State) (n : Nat) : (s.withOwnTaken n).kept = s.kept := rfl

@[simp] theorem requeue_kept (l : List Frame) (s : State) : (requeue l s).kept = s.kept :=
  foldl_kept _ (fun s f => queueUp_kept f s) _ _

@[simp] theorem depart_kept (x : DomainSet) (left : Departed) (s : State) : (depart x left s).1.kept = s.kept := rfl

@[simp] theorem passAt_kept (place : Nat) (lost : HoldRecord → Bool) (l : List HoldRecord) (s : State) :
    (passAt place lost l s).kept = s.kept := by
  unfold passAt
  repeat' split
  all_goals simp

@[simp] theorem reclassify_kept (left : Departed) (s : State) : (reclassify left s).kept = s.kept := passAt_kept _ _ _ _

@[simp] theorem dropAllDown_kept (left : Departed) (s : State) : (dropAllDown left s).kept = s.kept := passAt_kept _ _ _ _

@[simp] theorem releaseDomain_kept (d : Domain) (s : State) : (releaseDomain d s).kept = s.kept := rfl

@[simp] theorem markUp_kept (s : State) : (markUp s).kept = s.kept := by
  unfold markUp; split <;> rfl

@[simp] theorem permitAtWake_kept (s : State) : (permitAtWake s).kept = s.kept := by simp [permitAtWake]

@[simp] theorem linkDown_kept (s : State) : (linkDown s).kept = s.kept := rfl

@[simp] theorem linkUp_kept (s : State) : (linkUp s).kept = s.kept := by simp [linkUp]

@[simp] theorem recomputeLink_kept (s : State) : (recomputeLink s).kept = s.kept := by
  unfold recomputeLink
  repeat' split
  all_goals simp

@[simp] theorem writeDomain_kept (d : Domain) (st : DomState) (s : State) : (writeDomain d st s).kept = s.kept := by
  simp only [writeDomain]
  split <;> split <;> simp

@[simp] theorem writeCause_kept (d : Domain) (c : FaultCause) (s : State) : (writeCause d c s).kept = s.kept := rfl

@[simp] theorem allDomainsOff_kept (s : State) : (allDomainsOff s).kept = s.kept :=
  foldl_kept _ (fun s d => writeDomain_kept d .off s) _ s

@[simp] theorem driveLine_kept (l : EnLine) (high : Bool) (s : State) : (driveLine l high s).kept = s.kept := rfl
@[simp] theorem driveSafe_kept (s : State) : (driveSafe s).kept = s.kept := rfl
@[simp] theorem recordReport_kept (r : Report) (s : State) : (recordReport r s).kept = s.kept := rfl
@[simp] theorem makeReport_kept (r : Report) (s : State) : (makeReport r s).kept = s.kept := by simp [makeReport]

@[simp] theorem leaveRising_kept (d : Domain) (left : Departed) (s : State) : (leaveRising d left s).1.kept = s.kept := rfl

@[simp] theorem replaceRising_kept (new : DomainSet) (left : Departed) (s : State) : (replaceRising new left s).1.kept = s.kept :=
  rfl

@[simp] theorem setArm_kept (s : State) : (setArm s).kept = s.kept := rfl
@[simp] theorem disarm_kept (s : State) : (disarm s).kept = s.kept := rfl
@[simp] theorem emptyArmed_kept (s : State) : (emptyArmed s).kept = s.kept := rfl
@[simp] theorem computeArmed_kept (f : Sleep) (s : State) : (computeArmed f s).kept = s.kept := rfl
@[simp] theorem startSleepCount_kept (s : State) : (startSleepCount s).kept = s.kept := rfl
@[simp] theorem stopSleepCount_kept (s : State) : (stopSleepCount s).kept = s.kept := rfl
@[simp] theorem resumeSleepCount_kept (s : State) : (resumeSleepCount s).kept = s.kept := rfl

/-! ## Members -/

@[simp] theorem withRunning_kept (s : State) (x : List Member) : (s.withRunning x).kept = s.kept := rfl
@[simp] theorem withOrders_kept (s : State) (x : List OrderEntry) : (s.withOrders x).kept = s.kept := rfl
@[simp] theorem countStarted_kept (s : State) : (countStarted s).kept = s.kept := rfl

@[simp] theorem sendOrder_kept (d : Domain) (a : Addr) (t : OrdState) (p : Option Nat) (s : State) :
    (sendOrder d a t p s).kept = s.kept := by
  simp only [sendOrder, queueDown_kept]; rfl

@[simp] theorem endRising_kept (a : Action) (left : Departed) (s : State) : (endRising a left s).1.kept = s.kept := by
  unfold endRising
  repeat' split
  all_goals simp

@[simp] theorem dropMember_kept (m : Member) (s : State) : (dropMember m s).kept = s.kept := rfl

@[simp] theorem pushUndo_kept (m : Member) (s : State) : (pushUndo m s).kept = s.kept := by
  unfold pushUndo
  repeat' split
  all_goals rfl

@[simp] theorem completeMember_kept (m : Member) (left : Departed) (s : State) : (completeMember m left s).1.kept = s.kept := by
  simp only [completeMember, endRising_kept, dropMember_kept, pushUndo_kept]
  split <;> simp

@[simp] theorem failMember_kept (m : Member) (d : Domain) (st : DomState) (c : FaultCause) (left : Departed) (s : State) :
    (failMember m d st c left s).1.kept = s.kept := by simp [failMember]

@[simp] theorem abandonMember_kept (p : State × Departed) (m : Member) : (abandonMember p m).1.kept = p.1.kept := by
  simp only [abandonMember, endRising_kept]
  split <;> simp

@[simp] theorem abandonGroup_kept (left : Departed) (s : State) : (abandonGroup left s).1.kept = s.kept := by
  have fold : ∀ (l : List Member) (p : State × Departed), (l.foldl abandonMember p).1.kept = p.1.kept := by
    intro l
    induction l with
    | nil => intro p; rfl
    | cons m l ih => intro p; rw [List.foldl_cons, ih, abandonMember_kept]
  exact fold _ _

@[simp] theorem addMember_kept (m : Member) (s : State) : (addMember m s).kept = s.kept := rfl

@[simp] theorem failAtStart_kept (m : Member) (d : Domain) (c : FaultCause) (left : Departed) (s : State) :
    (failAtStart m d c left s).state.kept = s.kept := by simp [failAtStart]

@[simp] theorem completeOrRun_kept (b : Bool) (m : Member) (left : Departed) (s : State) :
    (completeOrRun b m left s).state.kept = s.kept := by
  unfold completeOrRun; split <;> simp

@[simp] theorem startMember_kept (q : PlanStep) (left : Departed) (s : State) : (startMember q left s).state.kept = s.kept := by
  simp only [startMember]
  repeat' split
  all_goals simp

@[simp] theorem runSteps_kept (l : List PlanStep) (left : Departed) (s : State) : (runSteps l left s).state.kept = s.kept := by
  induction l generalizing left s with
  | nil => rfl
  | cons q l ih =>
    simp only [runSteps]
    repeat' split
    all_goals simp [ih]

@[simp] theorem groupTest_kept (p : State × Departed) : (groupTest p).state.kept = p.1.kept := by
  unfold groupTest
  repeat' split
  all_goals simp

/-! ## Engine -/

@[simp] theorem clearWork_kept (s : State) : (clearWork s).kept = s.kept := rfl

@[simp] theorem cancelRunning_kept (s : State) : (cancelRunning s).kept = s.kept := by
  unfold cancelRunning; rw [foldl_kept _ (fun s d => writeDomain_kept d .unknown s)]; rfl

@[simp] theorem reachSoftoff_kept (s : State) : (reachSoftoff s).kept = s.kept := rfl

@[simp] theorem reportForced_kept (s : State) : (reportForced s).kept = s.kept := by
  have h := makeReport_kept (forcedReport s) s
  exact h

@[simp] theorem forcedOffEnd_kept (s : State) : (forcedOffEnd s).kept = s.kept := by simp [forcedOffEnd]

@[simp] theorem directSafeLoad_kept (s : State) : (directSafeLoad s).kept = s.kept := by simp [directSafeLoad]

@[simp] theorem settleForcing_kept (r : Run) : (settleForcing r).1.kept = r.state.kept := by
  unfold settleForcing; split <;> simp

@[simp] theorem startForcedOff_kept (s : State) : (startForcedOff s).1.kept = s.kept := by
  unfold startForcedOff
  split
  · simp
  · simp only [settleForcing_kept, runSteps_kept]; rfl

@[simp] theorem stopIfRest_kept (s : State) : (stopIfRest s).kept = s.kept := by
  unfold stopIfRest; split <;> simp

@[simp] theorem beginForcing_kept (c : ForcingCause) (left : Departed) (s : State) : (beginForcing c left s).1.kept = s.kept := by
  simp only [beginForcing, startForcedOff_kept, disarm_kept, withPermit_kept, dropAllDown_kept, withRising_kept,
    withPlatform_kept, cancelRunning_kept, stopIfRest_kept]
  rfl

@[simp] theorem sendResume_kept (s : State) : (sendResume s).kept = s.kept := by
  unfold sendResume; split <;> simp

@[simp] theorem wakeEnd_kept (f : Sleep) (left : Departed) (s : State) : (wakeEnd f left s).1.kept = s.kept := by
  simp only [wakeEnd]
  split
  · simp only [permitAtWake_kept, sendResume_kept, recordReport_kept, replaceRising_kept]; rfl
  · simp

@[simp] theorem settleWaking_kept (f : Sleep) (r : Run) : (settleWaking f r).1.kept = r.state.kept := by
  unfold settleWaking; split <;> simp

@[simp] theorem captureContext_kept (f : Sleep) (r : WakeReason) (s : State) : (captureContext f r s).kept = s.kept := rfl

@[simp] theorem refuseOffWake_kept (i : Option Nat) (s : State) : (refuseOffWake i s).kept = s.kept := by
  simp [refuseOffWake]

@[simp] theorem acceptWake_kept (f : Sleep) (r : WakeReason) (left : Departed) (s : State) :
    (acceptWake f r left s).1.kept = s.kept := by
  simp only [acceptWake]
  split
  · simp only [settleWaking_kept, runSteps_kept]; rfl
  · split <;> simp

@[simp] theorem acceptLatched_kept (f : Sleep) (left : Departed) (s : State) : (acceptLatched f left s).1.kept = s.kept := by
  unfold acceptLatched; split <;> simp

@[simp] theorem withUndo_kept (s : State) (u : Option UndoRun) (l : List UndoRecord) : (s.withUndo u l).kept = s.kept := rfl

@[simp] theorem unwindEnd_kept (left : Departed) (s : State) : (unwindEnd left s).1.kept = s.kept := by
  simp only [unwindEnd, makeReport_kept, replaceRising_kept]; rfl

@[simp] theorem undoLeavesRising_kept (a : UndoAction) (l : List UndoRecord) (left : Departed) (s : State) :
    (undoLeavesRising a l left s).1.kept = s.kept := by
  unfold undoLeavesRising
  repeat' split
  all_goals simp

@[simp] theorem undoLineDone_kept (a : UndoAction) (s : State) : (undoLineDone a s).kept = s.kept := by
  unfold undoLineDone; split <;> simp

@[simp] theorem unwindFrom_kept (l : List UndoRecord) (left : Departed) (s : State) : (unwindFrom l left s).1.kept = s.kept := by
  induction l generalizing left s with
  | nil => exact unwindEnd_kept left s
  | cons r l ih =>
    simp only [unwindFrom]
    repeat' split
    all_goals simp [ih]

@[simp] theorem beginUnwinding_kept (t : Sleep) (i : UnwindInfo) (left : Departed) (s : State) :
    (beginUnwinding t i left s).1.kept = s.kept := by
  simp only [beginUnwinding, unwindFrom_kept, replaceRising_kept, emptyArmed_kept]; rfl

@[simp] theorem undoEnded_kept (u : UndoRun) (s : State) : (undoEnded u s).1.kept = s.kept := by
  simp only [undoEnded, unwindFrom_kept, undoLeavesRising_kept]; rfl

@[simp] theorem entryEnd_kept (t : Sleep) (left : Departed) (s : State) : (entryEnd t left s).1.kept = s.kept := by
  simp only [entryEnd, acceptLatched_kept, makeReport_kept, startSleepCount_kept, setArm_kept]
  rfl

@[simp] theorem settle_kept (r : Run) : (settle r).1.kept = r.state.kept := by
  simp only [settle]
  repeat' split
  all_goals simp

@[simp] theorem memberCompleted_kept (m : Member) (s : State) : (memberCompleted m s).1.kept = s.kept := by
  simp [memberCompleted]

@[simp] theorem memberFailed_kept (m : Member) (d : Domain) (st : DomState) (c : FaultCause) (s : State) :
    (memberFailed m d st c s).1.kept = s.kept := by
  simp only [memberFailed]; split <;> simp

@[simp] theorem deferForcing_kept (c : ReportCause) (s : State) : (deferForcing c s).kept = s.kept := by
  unfold deferForcing
  split
  · rename_i l h; simp [State.kept, State.withLdr, h, Loading.kept]
  · rfl

@[simp] theorem forcingEvent_kept (c : ReportCause) (left : Departed) (s : State) : (forcingEvent c left s).1.kept = s.kept := by
  unfold forcingEvent
  repeat' split
  all_goals simp

/-! ## Wake and Monitor -/

@[simp] theorem latchBit_kept (src : Source) (s : State) : (latchBit src s).kept = s.kept := by
  simp only [latchBit]
  split
  · rfl
  · rw [queueUp_kept]; rfl

@[simp] theorem suppress_kept (src : Source) (s : State) : (suppress src s).kept = s.kept := by
  simp only [suppress, queueUp_kept]; rfl

@[simp] theorem stormStep_kept (src : Source) (s : State) : (stormStep src s).kept = s.kept := by
  unfold stormStep
  repeat' split
  all_goals first | rfl | simp

@[simp] theorem armedLatch_kept (src : Source) (left : Departed) (s : State) : (armedLatch src left s).1.kept = s.kept := by
  unfold armedLatch
  repeat' split
  all_goals first | rfl | simp

@[simp] theorem armStep_kept (src : Source) (left : Departed) (s : State) : (armStep src left s).1.kept = s.kept := by
  unfold armStep; split <;> simp

@[simp] theorem latchFrom_kept (src : Source) (p : State × Departed) : (latchFrom src p).1.kept = p.1.kept := by
  simp [latchFrom]

@[simp] theorem latchEvent_kept (src : Source) (s : State) : (latchEvent src s).1.kept = s.kept := by simp [latchEvent]

/-- A fold over a state and what has left it, whose steps leave `kept` alone. -/
theorem pair_foldl_kept {α : Type} (g : State × Departed → α → State × Departed) (h : ∀ p a, (g p a).1.kept = p.1.kept)
    (l : List α) (p : State × Departed) : (l.foldl g p).1.kept = p.1.kept := by
  induction l generalizing p with
  | nil => rfl
  | cons a l ih => rw [List.foldl_cons, ih, h]

@[simp] theorem relatch_kept (c : SourceSet) (p : State × Departed) : (relatch c p).1.kept = p.1.kept :=
  pair_foldl_kept _ (fun p k => by split <;> simp) _ p

@[simp] theorem writeFault_kept (d : Domain) (x : RailFault) (s : State) : (writeFault d x s).kept = s.kept := rfl

@[simp] theorem latchRail_kept (d : Domain) (p : State × Departed) : (latchRail d p).1.kept = p.1.kept := by
  simp only [latchRail]; split <;> simp

@[simp] theorem monitorFrom_kept (n : Nat) (p : State × Departed) : (monitorFrom n p).1.kept = p.1.kept := by
  induction n generalizing p with
  | zero => rfl
  | succ n ih => unfold monitorFrom; split <;> simp [ih]

@[simp] theorem endEvent_kept (p : State × Departed) : (endEvent p).kept = p.1.kept := by simp [endEvent]

@[simp] theorem monitor_kept (s : State) : (monitor s).kept = s.kept := endEvent_kept _

@[simp] theorem clearRail_kept (d : Domain) (s : State) : (clearRail d s).kept = s.kept := by
  simp only [clearRail]; split <;> rfl

end Sys2Proof.Machine
end

