-- ==== Sys2Proof/Laws/Memory.lean ====
section
/-! SUPPORT. The Retained Resume Area: every write keeps the canonical form, a read after a write gives the byte written,
and a write leaves every other address alone. -/

namespace Sys2Proof.Machine

theorem Memory.wfFrom_mono {low high : Nat} (h : low ≤ high) {m : Memory} (hm : Memory.wfFrom high m = true) :
    Memory.wfFrom low m = true := by
  cases m with
  | nil => rfl
  | cons c rest =>
    obtain ⟨k, v⟩ := c
    simp only [Memory.wfFrom, Bool.and_eq_true, decide_eq_true_eq] at hm ⊢
    exact ⟨⟨by omega, hm.1.2⟩, hm.2⟩

theorem Memory.wfFrom_write {m : Memory} {low a : Nat} {b : Byte} (hl : low ≤ a) (ha : a < 64)
    (hm : Memory.wfFrom low m = true) : Memory.wfFrom low (Memory.write m a b) = true := by
  induction m generalizing low with
  | nil => simp only [Memory.write]; split <;> simp_all [Memory.wfFrom]
  | cons c rest ih =>
    obtain ⟨k, v⟩ := c
    simp only [Memory.wfFrom, Bool.and_eq_true, decide_eq_true_eq] at hm
    simp only [Memory.write]
    split
    · simp only [Memory.wfFrom, Bool.and_eq_true, decide_eq_true_eq]
      exact ⟨hm.1, ih (by omega) hm.2⟩
    · split
      · rename_i hk; subst hk
        split
        · exact Memory.wfFrom_mono (by omega) hm.2
        · simp only [Memory.wfFrom, Bool.and_eq_true, decide_eq_true_eq]; exact ⟨⟨hl, ha, by assumption⟩, hm.2⟩
      · split
        · simp only [Memory.wfFrom, Bool.and_eq_true, decide_eq_true_eq]; exact hm
        · simp only [Memory.wfFrom, Bool.and_eq_true, decide_eq_true_eq]
          exact ⟨⟨hl, ha, by assumption⟩, ⟨by omega, hm.1.2⟩, hm.2⟩

/-- A write keeps the canonical form. -/
theorem Memory.wf_write {m : Memory} {a : Nat} {b : Byte} (ha : a < 64) (hm : Memory.wf m = true) :
    Memory.wf (Memory.write m a b) = true := Memory.wfFrom_write (Nat.zero_le _) ha hm

/-- Writing bytes from a pointer below 64 keeps the canonical form. -/
theorem Memory.wf_writeBytes {m : Memory} {p : Nat} (bs : List Byte) (hp : p < 64) (hm : Memory.wf m = true) :
    Memory.wf (Memory.writeBytes m p bs) = true := by
  induction bs generalizing m p with
  | nil => exact hm
  | cons b bs ih => exact ih (Nat.mod_lt _ (by omega)) (Memory.wf_write hp hm)

theorem Memory.read_of_wfFrom {m : Memory} {low a : Nat} (hm : Memory.wfFrom low m = true) (ha : a < low) :
    Memory.read m a = 0#8 := by
  induction m generalizing low with
  | nil => rfl
  | cons c rest ih =>
    obtain ⟨k, v⟩ := c
    simp only [Memory.wfFrom, Bool.and_eq_true, decide_eq_true_eq] at hm
    simp only [Memory.read]
    rw [if_neg (by omega)]
    exact ih hm.2 (by omega)

theorem Memory.read_writeFrom {m : Memory} {low : Nat} (a c : Nat) (b : Byte) (hm : Memory.wfFrom low m = true) :
    Memory.read (Memory.write m a b) c = if c = a then b else Memory.read m c := by
  induction m generalizing low with
  | nil =>
    by_cases hb : b = 0#8 <;> by_cases hc : c = a <;> simp [Memory.write, Memory.read, hb, hc, eq_comm]
    intro hac; exact absurd hac.symm hc
  | cons x rest ih =>
    obtain ⟨k, v⟩ := x
    simp only [Memory.wfFrom, Bool.and_eq_true, decide_eq_true_eq] at hm
    simp only [Memory.write]
    by_cases h1 : k < a
    · rw [if_pos h1]
      simp only [Memory.read, ih hm.2]
      by_cases hkc : k = c
      · rw [if_pos hkc, if_pos hkc, if_neg (by omega)]
      · simp [hkc]
    · rw [if_neg h1]
      by_cases h2 : k = a
      · rw [if_pos h2]; subst h2
        by_cases hb : b = 0#8
        · rw [if_pos hb, hb]
          by_cases hc : c = k
          · rw [if_pos hc, hc]; exact Memory.read_of_wfFrom hm.2 (by omega)
          · simp [Memory.read, hc, eq_comm]
        · rw [if_neg hb]
          by_cases hc : c = k
          · simp [Memory.read, hc]
          · simp [Memory.read, hc, Ne.symm hc]
      · rw [if_neg h2]
        have hlast : Memory.read ((k, v) :: rest) a = 0#8 := by
          simp only [Memory.read]; rw [if_neg h2]; exact Memory.read_of_wfFrom hm.2 (by omega)
        by_cases hb : b = 0#8
        · rw [if_pos hb, hb]
          by_cases hc : c = a
          · rw [if_pos hc, hc]; exact hlast
          · rw [if_neg hc]
        · rw [if_neg hb]
          by_cases hc : c = a
          · simp [Memory.read, hc]
          · simp [Memory.read, hc, Ne.symm hc]

/-- What a read gives after a write. -/
theorem Memory.read_write {m : Memory} (a c : Nat) (b : Byte) (hm : Memory.wf m = true) :
    Memory.read (Memory.write m a b) c = if c = a then b else Memory.read m c := Memory.read_writeFrom a c b hm

/-- A write of bytes leaves an address alone that none of them goes to. -/
theorem Memory.read_writeBytes_of_not_mem {m : Memory} {p : Nat} (bs : List Byte) (c : Nat) (hp : p < 64)
    (hm : Memory.wf m = true) (hc : ∀ i, i < bs.length → c ≠ (p + i) % 64) :
    Memory.read (Memory.writeBytes m p bs) c = Memory.read m c := by
  induction bs generalizing m p with
  | nil => rfl
  | cons b bs ih =>
    have h0 := hc 0 (by simp)
    have hq : (p + 1) % 64 < 64 := Nat.mod_lt _ (by omega)
    have hs := ih hq (Memory.wf_write (b := b) hp hm) (fun i hi => by
      have := hc (i + 1) (by simpa using hi)
      rwa [show ((p + 1) % 64 + i) % 64 = (p + (i + 1)) % 64 by omega])
    rw [Memory.writeBytes, hs, Memory.read_write _ _ _ hm, if_neg]
    simpa [Nat.mod_eq_of_lt hp] using h0

/-- At most 64 bytes written from a pointer are read back at their addresses. -/
theorem Memory.read_writeBytes {m : Memory} {p : Nat} (bs : List Byte) (hp : p < 64) (hlen : bs.length ≤ 64)
    (hm : Memory.wf m = true) (i : Nat) (hi : i < bs.length) :
    Memory.read (Memory.writeBytes m p bs) ((p + i) % 64) = bs[i] := by
  induction bs generalizing m p i with
  | nil => simp at hi
  | cons b bs ih =>
    have hq : (p + 1) % 64 < 64 := Nat.mod_lt _ (by omega)
    have hw := Memory.wf_write (b := b) hp hm
    simp only [List.length_cons] at hlen hi
    cases i with
    | zero =>
      rw [Memory.writeBytes, Memory.read_writeBytes_of_not_mem bs _ hq hw, Memory.read_write _ _ _ hm]
      · simp [Nat.mod_eq_of_lt hp]
      · intro j hj; omega
    | succ i =>
      have := ih hq (by omega) hw i (by omega)
      rw [Memory.writeBytes, show (p + (i + 1)) % 64 = ((p + 1) % 64 + i) % 64 by omega, this]
      rfl

/-- Reading bytes reads each of their addresses. -/
theorem Memory.readBytes_eq (m : Memory) (p n : Nat) (hp : p < 64) :
    Memory.readBytes m p n = (List.range n).map fun i => Memory.read m ((p + i) % 64) := by
  induction n generalizing p with
  | zero => rfl
  | succ n ih =>
    rw [Memory.readBytes, ih _ (Nat.mod_lt _ (by omega)), List.range_succ_eq_map, List.map_cons, List.map_map]
    congr 1
    · simp [Nat.mod_eq_of_lt hp]
    · apply List.map_congr_left
      intro i _
      simp only [Function.comp]
      congr 1
      omega

end Sys2Proof.Machine
end

