-- ==== Sys2Proof/WellFormed.lean ====
section
/-! DEFINITION. Which operands a command of the part can carry. Most rows carry none; the checks are the bounds the
manual sets on the others. -/

namespace Sys2Proof

/-- A received frame holds a 4-byte header, at most 63 bytes that its 6-bit length field can announce, and 2 CRC bytes
(R161); a length field above 32 is a frame error and not an ill-formed command. -/
def WellFormed.frameBytes (bytes : List Byte) : Bool :=
  decide (6 ≤ bytes.length ∧ bytes.length ≤ 4 + 63 + 2)

/-- A plan holds at most 32 steps, so a position lies below 32 (R44). -/
def WellFormed.planPosition (position : Nat) : Bool :=
  decide (position < 32)

/-- An image is 8 to 16384 bytes long in whole units of 4, so 3 to 16379 bytes follow its first five (section 11.2). -/
def WellFormed.imageRest (bytes : List Byte) : Bool :=
  decide (3 ≤ bytes.length ∧ bytes.length ≤ 16379 ∧ (bytes.length + 5) % 4 = 0)

/-- The operands of a command lie within the bounds the manual sets. -/
def WellFormed : Instr → Bool
  | .frameReceived _ _ bytes => WellFormed.frameBytes bytes
  | .orderTimeout p => WellFormed.planPosition p
  | .awaitGoodTimeout p => WellFormed.planPosition p
  | .lineSettleExpiry p => WellFormed.planPosition p
  | .delayExpiry p => WellFormed.planPosition p
  | .imageReadComplete bytes => WellFormed.imageRest bytes
  | .powerOnReset | .mainsLoss | .mainsReturn
  | .upstreamRoutingDiscard | .downstreamRoutingDiscard | .linkDownInputDiscard | .outputArbiterFill _
  | .go | .setStepStore | .setSequenceDirectory | .setDomainConfiguration | .setAgentMap | .setWakeMatchTable
  | .setWakeSettings | .setLineQualifiers | .setButtonSettings | .setWakeTimer | .setSafeLevels
  | .setRetainedResumeArea | .reinit
  | .getStepStore | .getSequenceDirectory | .getDomainConfiguration | .getDomainStatus | .getAgentMap
  | .getWakeMatchTable | .getWakeSettings | .getWakeStatus | .getStormCounts | .getWakeContext
  | .getLineQualifiers | .getButtonSettings | .getWakeTimer | .getSafeLevels | .getEngineState | .getLastReport
  | .getHoldQueue | .getPowerGoodLevels | .getCounters | .getRetainedResumeArea | .getLoaderStatus
  | .clearWakeLatch | .clearSuppressed | .clearRailFaults | .clearCounters | .managementRequestBadSelector
  | .downstreamTraffic | .upstreamAnswer | .matcherTakeMessage | .orderDone
  | .undoOrderTimeout | .undoLineSettleExpiry | .powerGoodChange _ _ | .blankingExpiry _
  | .lineFilteredChange _ _ | .buttonPress | .buttonRelease | .pressTimerExpiry | .overrideTimerExpiry
  | .secondsStep | .wakeTimerExpiry | .stormWindowExpiry
  | .imageHeaderRead _ _ _ _ _ | .loaderRecordApply | .startDelimiterBeforeFrameEnd _ => true

end Sys2Proof
end

