-- ==== Sys2Proof/Laws/PerInstr.lean ====
section
/-! SUPPORT. The family Shape: what every command is as syntax, one lemma for each constructor. -/

namespace Sys2Proof.Laws.Shape

/-- The plan positions that a command names. -/
def positions : Instr → List Nat
  | .orderTimeout p | .awaitGoodTimeout p | .lineSettleExpiry p | .delayExpiry p => [p]
  | _ => []

/-- The bytes that a command carries from outside the part. -/
def carried : Instr → List Byte
  | .frameReceived _ _ bytes => bytes
  | .imageReadComplete bytes => bytes
  | _ => []

/-- A well-formed command names positions of a plan of at most 32 steps (R44) and carries no more bytes than an image has
behind its first five (section 11.2); no word spells a command (log entry 26). -/
def Statement (i : Instr) : Prop :=
  (WellFormed i = true → (∀ p ∈ positions i, p < 32) ∧ (carried i).length ≤ 16379) ∧
  ∀ nbits w, decodeTableWord nbits w ≠ some i

/-- A command that names no position and carries no bytes. -/
theorem statement_of_plain {i : Instr} (hp : positions i = []) (hc : carried i = []) : Statement i :=
  ⟨fun _ => ⟨by simp [hp], by simp [hc]⟩, fun _ _ => by simp [decodeTableWord]⟩

/-- A command that names one position and carries no bytes. -/
theorem statement_of_position {i : Instr} {p : Nat} (hp : positions i = [p]) (hc : carried i = [])
    (hw : WellFormed i = WellFormed.planPosition p) : Statement i :=
  ⟨fun h => ⟨by simpa [hp, hw, WellFormed.planPosition] using h, by simp [hc]⟩, fun _ _ => by simp [decodeTableWord]⟩

theorem powerOnReset : Statement .powerOnReset := statement_of_plain rfl rfl
theorem mainsLoss : Statement .mainsLoss := statement_of_plain rfl rfl
theorem mainsReturn : Statement .mainsReturn := statement_of_plain rfl rfl
theorem frameReceived (port : PortId) (readyAtStart : Bool) (bytes : List Byte) : Statement (.frameReceived port readyAtStart bytes) :=
  ⟨fun h => by
    simp only [WellFormed, WellFormed.frameBytes, decide_eq_true_eq] at h
    exact ⟨by simp [positions], by simp only [carried]; omega⟩, fun _ _ => by simp [decodeTableWord]⟩
theorem upstreamRoutingDiscard : Statement .upstreamRoutingDiscard := statement_of_plain rfl rfl
theorem downstreamRoutingDiscard : Statement .downstreamRoutingDiscard := statement_of_plain rfl rfl
theorem linkDownInputDiscard : Statement .linkDownInputDiscard := statement_of_plain rfl rfl
theorem outputArbiterFill (port : PortId) : Statement (.outputArbiterFill port) := statement_of_plain rfl rfl
theorem go : Statement .go := statement_of_plain rfl rfl
theorem setStepStore : Statement .setStepStore := statement_of_plain rfl rfl
theorem setSequenceDirectory : Statement .setSequenceDirectory := statement_of_plain rfl rfl
theorem setDomainConfiguration : Statement .setDomainConfiguration := statement_of_plain rfl rfl
theorem setAgentMap : Statement .setAgentMap := statement_of_plain rfl rfl
theorem setWakeMatchTable : Statement .setWakeMatchTable := statement_of_plain rfl rfl
theorem setWakeSettings : Statement .setWakeSettings := statement_of_plain rfl rfl
theorem setLineQualifiers : Statement .setLineQualifiers := statement_of_plain rfl rfl
theorem setButtonSettings : Statement .setButtonSettings := statement_of_plain rfl rfl
theorem setWakeTimer : Statement .setWakeTimer := statement_of_plain rfl rfl
theorem setSafeLevels : Statement .setSafeLevels := statement_of_plain rfl rfl
theorem setRetainedResumeArea : Statement .setRetainedResumeArea := statement_of_plain rfl rfl
theorem reinit : Statement .reinit := statement_of_plain rfl rfl
theorem getStepStore : Statement .getStepStore := statement_of_plain rfl rfl
theorem getSequenceDirectory : Statement .getSequenceDirectory := statement_of_plain rfl rfl
theorem getDomainConfiguration : Statement .getDomainConfiguration := statement_of_plain rfl rfl
theorem getDomainStatus : Statement .getDomainStatus := statement_of_plain rfl rfl
theorem getAgentMap : Statement .getAgentMap := statement_of_plain rfl rfl
theorem getWakeMatchTable : Statement .getWakeMatchTable := statement_of_plain rfl rfl
theorem getWakeSettings : Statement .getWakeSettings := statement_of_plain rfl rfl
theorem getWakeStatus : Statement .getWakeStatus := statement_of_plain rfl rfl
theorem getStormCounts : Statement .getStormCounts := statement_of_plain rfl rfl
theorem getWakeContext : Statement .getWakeContext := statement_of_plain rfl rfl
theorem getLineQualifiers : Statement .getLineQualifiers := statement_of_plain rfl rfl
theorem getButtonSettings : Statement .getButtonSettings := statement_of_plain rfl rfl
theorem getWakeTimer : Statement .getWakeTimer := statement_of_plain rfl rfl
theorem getSafeLevels : Statement .getSafeLevels := statement_of_plain rfl rfl
theorem getEngineState : Statement .getEngineState := statement_of_plain rfl rfl
theorem getLastReport : Statement .getLastReport := statement_of_plain rfl rfl
theorem getHoldQueue : Statement .getHoldQueue := statement_of_plain rfl rfl
theorem getPowerGoodLevels : Statement .getPowerGoodLevels := statement_of_plain rfl rfl
theorem getCounters : Statement .getCounters := statement_of_plain rfl rfl
theorem getRetainedResumeArea : Statement .getRetainedResumeArea := statement_of_plain rfl rfl
theorem getLoaderStatus : Statement .getLoaderStatus := statement_of_plain rfl rfl
theorem clearWakeLatch : Statement .clearWakeLatch := statement_of_plain rfl rfl
theorem clearSuppressed : Statement .clearSuppressed := statement_of_plain rfl rfl
theorem clearRailFaults : Statement .clearRailFaults := statement_of_plain rfl rfl
theorem clearCounters : Statement .clearCounters := statement_of_plain rfl rfl
theorem managementRequestBadSelector : Statement .managementRequestBadSelector := statement_of_plain rfl rfl
theorem downstreamTraffic : Statement .downstreamTraffic := statement_of_plain rfl rfl
theorem upstreamAnswer : Statement .upstreamAnswer := statement_of_plain rfl rfl
theorem matcherTakeMessage : Statement .matcherTakeMessage := statement_of_plain rfl rfl
theorem orderDone : Statement .orderDone := statement_of_plain rfl rfl
theorem orderTimeout (position : Nat) : Statement (.orderTimeout position) :=
  statement_of_position rfl rfl rfl
theorem awaitGoodTimeout (position : Nat) : Statement (.awaitGoodTimeout position) :=
  statement_of_position rfl rfl rfl
theorem lineSettleExpiry (position : Nat) : Statement (.lineSettleExpiry position) :=
  statement_of_position rfl rfl rfl
theorem delayExpiry (position : Nat) : Statement (.delayExpiry position) :=
  statement_of_position rfl rfl rfl
theorem undoOrderTimeout : Statement .undoOrderTimeout := statement_of_plain rfl rfl
theorem undoLineSettleExpiry : Statement .undoLineSettleExpiry := statement_of_plain rfl rfl
theorem powerGoodChange (line : PgLine) (asserted : Bool) : Statement (.powerGoodChange line asserted) := statement_of_plain rfl rfl
theorem blankingExpiry (domain : Domain) : Statement (.blankingExpiry domain) := statement_of_plain rfl rfl
theorem lineFilteredChange (line : WakeLine) (high : Bool) : Statement (.lineFilteredChange line high) := statement_of_plain rfl rfl
theorem buttonPress : Statement .buttonPress := statement_of_plain rfl rfl
theorem buttonRelease : Statement .buttonRelease := statement_of_plain rfl rfl
theorem pressTimerExpiry : Statement .pressTimerExpiry := statement_of_plain rfl rfl
theorem overrideTimerExpiry : Statement .overrideTimerExpiry := statement_of_plain rfl rfl
theorem secondsStep : Statement .secondsStep := statement_of_plain rfl rfl
theorem wakeTimerExpiry : Statement .wakeTimerExpiry := statement_of_plain rfl rfl
theorem stormWindowExpiry : Statement .stormWindowExpiry := statement_of_plain rfl rfl
theorem imageHeaderRead (b0 b1 b2 b3 b4 : Byte) : Statement (.imageHeaderRead b0 b1 b2 b3 b4) := statement_of_plain rfl rfl
theorem imageReadComplete (bytes : List Byte) : Statement (.imageReadComplete bytes) :=
  ⟨fun h => by
    simp only [WellFormed, WellFormed.imageRest, decide_eq_true_eq] at h
    exact ⟨by simp [positions], by simp only [carried]; omega⟩, fun _ _ => by simp [decodeTableWord]⟩
theorem loaderRecordApply : Statement .loaderRecordApply := statement_of_plain rfl rfl
theorem startDelimiterBeforeFrameEnd (port : PortId) : Statement (.startDelimiterBeforeFrameEnd port) := statement_of_plain rfl rfl

end Sys2Proof.Laws.Shape
end

