-- ==== Sys2Proof/Laws/Requests.lean ====
section
/-! SUPPORT. What taking and answering a request does, said once for each kind of request; when the Monitor's test does
nothing; the heads of the input FIFOs. -/

namespace Sys2Proof.Machine

/-! ## The Monitor -/

theorem railFaulty_of_railsGood {s : State} (h : s.RailsGood) (d : Domain) : s.railFaulty d = false := by
  unfold State.railFaulty
  cases hp : (s.config d).pgLine with
  | none => simp
  | some l => simp [h d l hp]

/-- With every named rail ASSERTED an event ends with the pass over the records that have left alone. -/
theorem endEvent_of_railsGood {p : State × Departed} (h : p.1.RailsGood) : endEvent p = reclassify p.2 p.1 := by
  have : allDomains.find? p.1.railFaulty = none := by
    rw [List.find?_eq_none]; intro d _; simp [railFaulty_of_railsGood h d]
  simp [endEvent, monitorFrom, this]

/-- With every named rail ASSERTED the Monitor's test changes nothing. -/
theorem monitor_of_railsGood {s : State} (h : s.RailsGood) : monitor s = s := by
  unfold monitor
  rw [endEvent_of_railsGood h, reclassify_start]

/-- RailsGood reads only the configuration records and the deglitched lines. -/
theorem State.RailsGood.congr {s t : State} (h : s.RailsGood) (hc : t.dom.config = s.dom.config) (hm : t.mon = s.mon) :
    t.RailsGood := by
  intro d l hd
  have : (s.config d).pgLine = some l := by simpa [State.config, hc] using hd
  simpa [State.pgLevel, hm] using h d l this

/-- An operation that leaves everything outside the Engine's writes alone leaves the rails good. -/
theorem State.RailsGood.of_kept {s t : State} (h : s.RailsGood) (hk : t.kept = s.kept) : t.RailsGood := by
  have hd : t.dom.kept = s.dom.kept := congrArg State.dom hk
  have hm : t.mon = s.mon := by simpa [State.kept] using congrArg State.mon hk
  exact h.congr (by simpa [DomainTable.kept] using congrArg DomainTable.config hd) hm

/-! ## Requests -/

section
variable {s : State} {f : Frame} (h : s.Waiting f)
include h

theorem State.Waiting.input : s.up.input = f :: s.up.input.tail := by
  have := h.head
  cases hi : s.up.input with
  | nil => simp [hi] at this
  | cons a l => simp_all

theorem State.Waiting.request (hk : f.kind = .set ∨ f.kind = .get ∨ f.kind = .go ∨ f.kind = .clear) :
    s.request = some f := by
  have hr : routeUp f = .management := by
    unfold routeUp
    rcases hk with hk | hk | hk | hk <;> simp [h.source, h.dest, h.proxy, hk]
  simp only [State.request, h.link, State.isLoading, h.loaded, h.free, h.room]
  rw [h.input]
  simp [hr]

/-- The answer to a waiting request. -/
theorem State.Waiting.answer (code : ResultCode) (data : List Byte) :
    Machine.answer f code data (popUp s) = s.answered f (code.code :: data) := by
  simp [Machine.answer, queueResult, popUp, State.withUp, h.link, h.room, resultFrame, State.answered]

theorem State.Waiting.requestFor (k : Kind) (selector : Byte) (hk : f.kind = k) (rest : List Byte)
    (hp : f.payload = selector :: rest) (h4 : k = .set ∨ k = .get ∨ k = .go ∨ k = .clear) :
    s.requestFor k selector = some f := by
  simp [State.requestFor, h.request (hk ▸ h4), Option.filter, hk, hp]

theorem State.Waiting.serveGet (selector : Byte) (data : State → List Byte → Except ResultCode (List Byte))
    (hk : f.kind = .get) (rest : List Byte) (hp : f.payload = selector :: rest) :
    Machine.serveGet selector data s = match data s f.payload with
      | .ok bytes => s.answered f (0#8 :: bytes)
      | .error code => s.answered f [code.code] := by
  simp only [Machine.serveGet, h.requestFor .get selector hk rest hp (by simp)]
  cases data s f.payload <;> simp only [h.answer, ResultCode.code]

theorem State.Waiting.serveSet {α : Type} (selector : Byte) (check : State → List Byte → Except ResultCode α)
    (write : α → State → State) (hk : f.kind = .set) (rest : List Byte) (hp : f.payload = selector :: rest) :
    Machine.serveSet selector check write s =
      if s.eng.platform.transitional then s.answered f [1#8]
      else match check s f.payload with
        | .ok w => write w (s.answered f [0#8])
        | .error code => s.answered f [code.code] := by
  simp only [Machine.serveSet, h.requestFor .set selector hk rest hp (by simp)]
  split
  · simp only [h.answer, ResultCode.code]
  · cases check s f.payload <;> simp only [h.answer, ResultCode.code]

theorem State.Waiting.serveClear (selector : Byte) (effect : BitVec 16 → State → State) (hk : f.kind = .clear)
    (hi lo : Byte) (hp : f.payload = [selector, hi, lo]) :
    Machine.serveClear selector effect s = effect (word16 hi lo) (s.answered f [0#8]) := by
  simp only [Machine.serveClear, h.requestFor .clear selector hk _ hp (by simp), hp, h.answer, ResultCode.code]

end

/-- Answering changes the Upstream Port alone. -/
theorem State.RailsGood.answered {s : State} (hg : s.RailsGood) (f : Frame) (payload : List Byte) :
    (s.answered f payload).RailsGood := hg.congr rfl rfl

/-- A 16-bit value's bytes are read back. -/
theorem word16_bytes16 (x : BitVec 16) : word16 (x.extractLsb' 8 8) (x.extractLsb' 0 8) = x := by
  apply BitVec.eq_of_getLsbD_eq
  intro i hi
  simp only [word16, BitVec.getLsbD_append, BitVec.getLsbD_extractLsb']
  by_cases h : i < 8
  · simp [h]
  · simp [h, show i - 8 < 8 by omega, show 8 + (i - 8) = i by omega]

/-- A 32-bit value's bytes are read back. -/
theorem word32_bytes32 (x : BitVec 32) :
    word32 (x.extractLsb' 24 8) (x.extractLsb' 16 8) (x.extractLsb' 8 8) (x.extractLsb' 0 8) = x := by
  apply BitVec.eq_of_getLsbD_eq
  intro i hi
  simp only [word32, BitVec.getLsbD_append, BitVec.getLsbD_extractLsb']
  by_cases h0 : i < 8
  · simp [h0]
  · by_cases h1 : i < 16
    · simp [h0, show i - 8 < 8 by omega, show 8 + (i - 8) = i by omega]
    · by_cases h2 : i < 24
      · simp [h0, show ¬ i - 8 < 8 by omega, show i - 8 - 8 < 8 by omega, show 16 + (i - 8 - 8) = i by omega]
      · simp [h0, show ¬ i - 8 < 8 by omega, show ¬ i - 8 - 8 < 8 by omega, show i - 8 - 8 - 8 < 8 by omega,
          show 24 + (i - 8 - 8 - 8) = i by omega]

end Sys2Proof.Machine
end

