-- ==== Sys2Proof/Laws/Sets.lean ====
section
/-! SUPPORT. Sets coded as bits: membership after each operation. -/

namespace Sys2Proof.Machine

theorem setBit_getLsbD {n : Nat} (x : BitVec n) (i j : Fin n) :
    (setBit x i).getLsbD j = (x.getLsbD j || decide (j = i)) := by
  simp only [setBit, BitVec.getLsbD_or, BitVec.getLsbD_twoPow]
  by_cases h : j = i
  · subst h; simp
  · have : ¬ (i : Nat) = j := fun hn => h (Fin.ext hn.symm)
    simp [h, this]

theorem clearBit_getLsbD {n : Nat} (x : BitVec n) (i j : Fin n) :
    (clearBit x i).getLsbD j = (x.getLsbD j && !decide (j = i)) := by
  simp only [clearBit, BitVec.getLsbD_and, BitVec.getLsbD_not, BitVec.getLsbD_twoPow]
  by_cases h : j = i
  · subst h; simp
  · have : ¬ (i : Nat) = j := fun hn => h (Fin.ext hn.symm)
    simp [h, this]

/-- Removing a member that is not there changes nothing. -/
theorem clearBit_of_not_mem {n : Nat} (x : BitVec n) (i : Fin n) (h : x.getLsbD i = false) : clearBit x i = x := by
  apply BitVec.eq_of_getLsbD_eq
  intro j hj
  have := clearBit_getLsbD x i ⟨j, hj⟩
  rw [this]
  by_cases hi : (⟨j, hj⟩ : Fin n) = i
  · subst hi; simp_all
  · simp [hi]

theorem putBit_getLsbD {n : Nat} (x : BitVec n) (i j : Fin n) (b : Bool) :
    (putBit x i b).getLsbD j = if j = i then b else x.getLsbD j := by
  unfold putBit
  cases b
  · simp only [Bool.false_eq_true, if_false, clearBit_getLsbD]; split <;> simp_all
  · simp only [if_true, setBit_getLsbD]; split <;> simp_all

theorem diff_getLsbD {n : Nat} (x y : BitVec n) (i : Fin n) :
    (diff x y).getLsbD i = (x.getLsbD i && !y.getLsbD i) := by
  simp [diff]

/-- Membership in a set read off a list. -/
theorem setOf_getLsbD {n : Nat} (l : List (Fin n)) (p : Fin n → Bool) (i : Fin n) :
    (Machine.setOf l p).getLsbD i = (decide (i ∈ l) && p i) := by
  have fold : ∀ (l : List (Fin n)) (acc : BitVec n),
      (l.foldl (fun acc i => if p i then setBit acc i else acc) acc).getLsbD i =
        (acc.getLsbD i || (decide (i ∈ l) && p i)) := by
    intro l
    induction l with
    | nil => simp
    | cons a l ih =>
      intro acc
      rw [List.foldl_cons, ih]
      by_cases hp : p a
      · rw [if_pos hp, setBit_getLsbD]
        by_cases hi : i = a
        · subst hi; simp [hp]
        · simp [hi]
      · rw [if_neg hp]
        by_cases hi : i = a
        · subst hi; simp [hp]
        · simp [hi]
  rw [Machine.setOf, fold]; simp

theorem setOf_domains (p : Domain → Bool) (d : Domain) : (Machine.setOf allDomains p).getLsbD d = p d := by
  have : d ∈ allDomains := by revert d; decide
  rw [setOf_getLsbD]; simp [this]

theorem setOf_pgLines (p : PgLine → Bool) (l : PgLine) : (Machine.setOf allPgLines p).getLsbD l = p l := by
  have : l ∈ allPgLines := by revert l; decide
  rw [setOf_getLsbD]; simp [this]

/-- Sets with the same members are equal. -/
theorem set_ext {n : Nat} {x y : BitVec n} (h : ∀ i : Fin n, x.getLsbD i = y.getLsbD i) : x = y :=
  BitVec.eq_of_getLsbD_eq fun i hi => h ⟨i, hi⟩

/-- The lowest member of a set. -/
theorem lowest_eq_some {x : SourceSet} {i : Source} (hi : x.getLsbD i = true) (h : ∀ j : Source, j < i → x.getLsbD j = false) :
    lowest x = some i := by
  have hn : ∀ l : List Source, l.Pairwise (· < ·) → i ∈ l → l.find? (hasBit x) = some i := by
    intro l
    induction l with
    | nil => simp
    | cons a l ih =>
      intro hp hm
      rw [List.pairwise_cons] at hp
      rw [List.find?_cons]
      by_cases ha : a = i
      · subst ha; rw [show hasBit x a = true from hi]
      · have hl : i ∈ l := by simpa [Ne.symm ha] using hm
        have : hasBit x a = false := h a (hp.1 i hl)
        rw [this]; exact ih hp.2 hl
  exact hn allSources (by decide) (by clear hi h hn; revert i; decide)

end Sys2Proof.Machine
end

