-- ==== Sys2Proof/Laws/Tables.lean ====
section
/-! SUPPORT. Items of a request: cut from the payload, decoded, written to consecutive entries and read from them. -/

namespace Sys2Proof.Machine

/-- Items of one size, put behind one another, are cut apart again. -/
theorem chunks_flatMap {α : Type} (size : Nat) (bytes : α → List Byte) (h : ∀ a, (bytes a).length = size) (l : List α) :
    chunks size l.length (l.flatMap bytes) = l.map bytes := by
  induction l with
  | nil => rfl
  | cons a l ih =>
    simp only [List.flatMap_cons, List.length_cons, chunks, List.map_cons]
    rw [← h a, List.take_left, List.drop_left, h a, ih]

theorem flatMap_length_const {α : Type} (size : Nat) (bytes : α → List Byte) (h : ∀ a, (bytes a).length = size) (l : List α) :
    (l.flatMap bytes).length = size * l.length := by
  induction l with
  | nil => simp
  | cons a l ih => simp only [List.flatMap_cons, List.length_append, h, ih, List.length_cons, Nat.mul_succ]; omega

/-- Items that are each read back are all read back. -/
theorem decodeAll_map {α : Type} (f : List Byte → Option α) (bytes : α → List Byte) (l : List α)
    (h : ∀ a ∈ l, f (bytes a) = some a) : decodeAll f (l.map bytes) = some l := by
  induction l with
  | nil => rfl
  | cons a l ih =>
    simp only [List.map_cons, decodeAll, h a (by simp), ih (fun b hb => h b (by simp [hb]))]

/-- Items whose reading differs from what was put in, as a match entry's run count does. -/
theorem decodeAll_map_to {α β : Type} (f : List Byte → Option β) (bytes : α → List Byte) (g : α → β) (l : List α)
    (h : ∀ a ∈ l, f (bytes a) = some (g a)) : decodeAll f (l.map bytes) = some (l.map g) := by
  induction l with
  | nil => rfl
  | cons a l ih =>
    simp only [List.map_cons, decodeAll, h a (by simp), ih (fun b hb => h b (by simp [hb]))]

/-- What a table holds after consecutive entries have been written. -/
theorem writeFrom_getElem? {α : Type} {n : Nat} (v : Vector α n) (first : Nat) (l : List α) (i : Nat) (hi : i < n) :
    (writeFrom v first l)[i]? = if first ≤ i ∧ i < first + l.length then l[i - first]? else v[i]? := by
  induction l generalizing v first with
  | nil => simp [writeFrom]
  | cons a l ih =>
    rw [writeFrom, ih]
    by_cases h1 : first + 1 ≤ i ∧ i < first + 1 + l.length
    · rw [if_pos h1, if_pos (by simp only [List.length_cons]; omega)]
      rw [show i - first = (i - (first + 1)) + 1 by omega, List.getElem?_cons_succ]
    · rw [if_neg h1]
      by_cases h2 : i = first
      · subst h2
        rw [if_pos (by simp only [List.length_cons]; omega)]
        simp [hi]
      · rw [if_neg (by simp only [List.length_cons]; omega)]
        rw [Vector.getElem?_setIfInBounds, if_neg (by omega)]

/-- The head of a SET's payload with items of one size: it passes the tests of index and count. -/
theorem setItems_of_items {α : Type} {size limit lowest highest first : Nat} (selector : Byte) (bytes : α → List Byte)
    (h : ∀ a, (bytes a).length = size) (l : List α) (h1 : 1 ≤ l.length) (h2 : l.length ≤ limit) (h3 : lowest ≤ first)
    (h4 : first + l.length ≤ highest + 1) (h5 : first < 256) (h6 : l.length < 256) :
    setItems size limit lowest highest
        ([selector, BitVec.ofNat 8 first, BitVec.ofNat 8 l.length] ++ l.flatMap bytes) =
      .ok (first, l.map bytes) := by
  have e1 : (BitVec.ofNat 8 first).toNat = first := by simp; omega
  have e2 : (BitVec.ofNat 8 l.length).toNat = l.length := by simp; omega
  simp only [List.cons_append, List.nil_append, setItems, e1, e2, flatMap_length_const size bytes h]
  rw [if_neg (by simp), if_neg (by omega), chunks_flatMap size bytes h]

/-- The payload of a GET with items: it passes the tests of index and count. -/
theorem getItems_of_items {limit lowest highest first count : Nat} (selector : Byte) (h1 : 1 ≤ count) (h2 : count ≤ limit)
    (h3 : lowest ≤ first) (h4 : first + count ≤ highest + 1) (h5 : first < 256) (h6 : count < 256) :
    getItems limit lowest highest [selector, BitVec.ofNat 8 first, BitVec.ofNat 8 count] = .ok (first, count) := by
  have e1 : (BitVec.ofNat 8 first).toNat = first := by simp; omega
  have e2 : (BitVec.ofNat 8 count).toNat = count := by simp; omega
  simp only [getItems, e1, e2]
  rw [if_neg (by omega)]

/-- Consecutive entries read by index. -/
theorem readFrom_eq {α : Type} {n : Nat} (v : Vector α n) (first count : Nat) :
    readFrom v first count = (List.range count).filterMap fun i => v[first + i]? := by
  unfold readFrom
  rw [List.take_drop]
  induction count with
  | zero => simp
  | succ k ih =>
    rw [List.range_succ, List.filterMap_append, ← ih]
    by_cases h : first + k < n
    · have hl : first + k < v.toList.length := by simpa using h
      rw [show first + (k + 1) = first + k + 1 by omega, List.take_add_one, List.drop_append_of_le_length (by simp; omega)]
      simp [h]
    · rw [List.take_of_length_le (by simp; omega), List.take_of_length_le (by simp; omega)]
      simp [h]

end Sys2Proof.Machine
end

