-- ==== Sys2Proof/Tests/Slice0.lean ====
section
/-! SUPPORT. Tests: the checks of WellFormed, worked values of the manual, and for every statement with hypotheses a state
and operands that meet them, clause by clause. -/

namespace Sys2Proof.Tests

-- One test after another: in parallel, each kernel evaluation holds a thread until all before it are checked.
set_option Elab.async false

open Sys2Proof.Machine

/-! ## WellFormed refuses ill-formed operands -/

theorem test_short_frame_is_ill_formed :
    WellFormed (.frameReceived .upstream true [0#8, 0#8, 0#8, 0#8, 0#8]) = false := by decide

theorem test_position_32_is_ill_formed :
    WellFormed (.orderTimeout 32) = false ∧ WellFormed (.awaitGoodTimeout 32) = false ∧
    WellFormed (.lineSettleExpiry 32) = false ∧ WellFormed (.delayExpiry 32) = false ∧
    WellFormed (.orderTimeout 31) = true := by decide

theorem test_image_in_no_whole_units_is_ill_formed :
    WellFormed (.imageReadComplete [0#8, 0#8]) = false ∧ WellFormed (.imageReadComplete [0#8, 0#8, 0#8, 0#8]) = false ∧
    WellFormed (.imageReadComplete [0#8, 0#8, 0#8]) = true := by decide

/-! ## Values of the manual -/

/-- R161: the CRC of the nine ASCII bytes 123456789 is 0x29B1. -/
theorem test_crc_of_the_manual :
    crc16 [0x31#8, 0x32#8, 0x33#8, 0x34#8, 0x35#8, 0x36#8, 0x37#8, 0x38#8, 0x39#8] = 0x29B1#16 := by decide +kernel

/-- R38 and the durations that the chapters give: 0x74 is 1280 ticks, 0x24 is 16, 0xFF is the longest. -/
theorem test_durations_of_the_manual :
    ticks 0x74#8 = 1280 ∧ ticks 0x24#8 = 16 ∧ ticks 0x00#8 = 0 ∧ ticks 0xFF#8 = 507904 := by decide

/-- No row of the table gives bits. -/
theorem test_no_word_spells_a_command : decodeTableWord 32 0 = none := rfl

/-! ## States -/

/-- WORKING with the link UP and no loading. -/
def working : State :=
  { State.reset with
    eng := { Engine.initial with platform := .working }, dom := { DomainTable.initial with linkUp := true },
    ldr := ⟨none, .loaded⟩, wake := { WakeUnit.initial with arm := false } }

/-- A rest state with the link DOWN and no loading. -/
def resting (x : Sleep) : State :=
  { State.reset with eng := { Engine.initial with platform := .rest x }, ldr := ⟨none, .loaded⟩ }

/-- A frame waits at the Upstream Port. -/
def upIn (s : State) (f : Frame) : State := { s with up := { s.up with input := [f] } }

/-- A frame waits at the Downstream Port. -/
def downIn (s : State) (f : Frame) : State := { s with down := { s.down with input := [f] } }

/-- A request to the part. -/
def request (k : Kind) (payload : List Byte) : Frame := ⟨63#6, 0#6, k, 3#4, false, payload⟩

/-- A request waits in WORKING. -/
def asked (k : Kind) (payload : List Byte) : State := upIn working (request k payload)

theorem waiting_upIn (s : State) (k : Kind) (p : List Byte) (h1 : s.dom.linkUp = true) (h2 : s.ldr.loading = none)
    (h3 : s.mgmt.serving = none) (h4 : s.up.own = []) : (upIn s (request k p)).Waiting (request k p) :=
  ⟨h1, h2, h3, by show s.up.own.length < 24; rw [h4]; decide, rfl, rfl, rfl, rfl⟩

theorem waiting_asked (k : Kind) (p : List Byte) : (asked k p).Waiting (request k p) :=
  waiting_upIn _ _ _ rfl rfl rfl rfl

theorem railsGood_of_empty {s : State} (h : s.dom.config = Vector.replicate 12 DomainConfig.empty) : s.RailsGood := by
  intro d l hl
  unfold State.config at hl
  rw [h] at hl
  simp [DomainConfig.empty] at hl

/-! ## Witnesses: queue, idle, power -/

theorem witness_StepRunsFrontCommand : (State.reset.withPending [.go]).pending = .go :: [] := rfl

theorem witness_IdleTakesDueEventOrEdge :
    (dueEvents { State.reset with qual := { Qualifiers.initial with secondsDue := true } } = [.secondsStep]) ∧
    dueEvents State.reset = [] ∧ State.reset.pending = [] := by decide +kernel

/-- Mains power present. -/
def powered (s : State) : State := { s with qual := { s.qual with acok := ⟨true, 0⟩ } }

theorem witness_MainsLossCutsEverythingOff :
    (powered working).qual.acok.level = true ∧ (powered working).isLoading = false ∧
    (powered State.reset).qual.acok.level = true ∧ (powered State.reset).isLoading = true := by decide

/-- SOFTOFF under POWER-ON. -/
def afterLossOn : State := { resting .softoff with qual := { Qualifiers.initial with afterLoss := .powerOn } }

theorem witness_MainsReturnAppliesAfterLossPolicy :
    (working.qual.acok.level = false ∧ working.ldr.loading = none ∧ working.eng.platform ≠ .rest .softoff) ∧
    ((resting .softoff).qual.acok.level = false ∧ (resting .softoff).ldr.loading = none ∧
      (resting .softoff).qual.afterLoss = .stayOff) ∧
    (afterLossOn.qual.acok.level = false ∧ afterLossOn.ldr.loading = none ∧ afterLossOn.qual.afterLoss = .powerOn ∧
      afterLossOn.eng.platform = .rest .softoff) := by decide

theorem witness_rails_are_good : working.RailsGood ∧ (∀ x, (resting x).RailsGood) ∧ afterLossOn.RailsGood :=
  ⟨railsGood_of_empty rfl, fun _ => railsGood_of_empty rfl, railsGood_of_empty rfl⟩

theorem witness_TimeCodeIsMantissaTimesPowerOfFour :
    BitVec.ofNat 8 (32 * 7 + 31) = 0xFF#8 ∧ 7 < 8 ∧ 31 < 32 ∧ ticks 0xFF#8 = 31 * 4 ^ 7 := by decide

/-! ## Witnesses: frames and ports -/

/-- A message of 32 payload bytes from the controller to an agent, and one from an agent. -/
def longNote : Frame := ⟨5#6, 0#6, .note, 0#4, false, List.replicate 32 0xA5#8⟩

theorem witness_FrameBytesReadBack : longNote.payload.length ≤ 32 ∧ checkFrame (frameBytes longNote) = .good longNote := by
  decide +kernel

theorem witness_GoodFrameJoinsInputFifo :
    longNote.payload.length ≤ 32 ∧ working.up.receiving ≠ some false ∧ working.up.input.length < 4 ∧
    working.dom.linkUp = true ∧ (resting .standby).up.receiving ≠ some false ∧ (resting .standby).dom.linkUp = false ∧
    working.down.receiving ≠ some false ∧ working.down.input.length < 4 := by decide

theorem witness_FrameErrorsAreCountedAtTheirPort :
    32 < ((33#8 : Byte) &&& 0x3F#8).toNat ∧
    (((0#8 : Byte) &&& 0x3F#8).toNat + 2 = [0#8, 0#8].length ∧ 14 ≤ ((14#8 : Byte) &&& 0x0F#8).toNat) ∧
    ((1#8 : Byte) &&& 0x07#8 ≠ 0#8 ∧ (0x40#8 : Byte) &&& 0xC0#8 ≠ 0#8) ∧
    bytes16 (crc16 ([0#8, 0#8, 0#8, 0#8] ++ [])) ≠ [0#8, 0#8] ∧
    ({ Port.empty with receiving := some false } : Port).receiving.getD true = false ∧
    Port.empty.receiving.getD false = false := by decide +kernel

theorem witness_MisdirectedFramesAreDiscarded :
    (∃ (s : State) (f : Frame), s.up.input = f :: [] ∧ s.ldr.loading = none ∧ s.dom.linkUp = true ∧ f.dest = 0#6) ∧
    (∃ (s : State) (f : Frame), s.up.input = f :: [] ∧ s.ldr.loading = none ∧ s.dom.linkUp = true ∧ f.dest = 63#6 ∧
      f.kind ∉ [Kind.set, .get, .go, .clear]) ∧
    (∃ (s : State) (f : Frame), s.up.input = f :: [] ∧ s.ldr.loading = none ∧ s.dom.linkUp = false) ∧
    (∃ (s : State) (f g : Frame), s.down.input = [g] ++ f :: [] ∧ s.ldr.loading = none ∧ g.src = 5#6 ∧ g.proxy = false ∧
      g.dest = 0#6 ∧ g.kind = .note ∧ f.src = 0#6) :=
  ⟨⟨upIn working ⟨0#6, 0#6, .note, 0#4, false, []⟩, _, rfl, rfl, rfl, rfl⟩,
   ⟨upIn working ⟨63#6, 0#6, .note, 0#4, false, []⟩, _, rfl, rfl, rfl, rfl, by decide⟩,
   ⟨upIn (resting .standby) longNote, _, rfl, rfl, rfl⟩,
   ⟨{ working with down := { Port.empty with
        input := [⟨0#6, 5#6, .note, 0#4, false, []⟩, ⟨0#6, 0#6, .note, 0#4, false, []⟩] } },
      _, _, rfl, rfl, rfl, rfl, rfl, rfl, rfl⟩⟩

/-- Three frames in the output FIFO: one place is free. -/
def nearlyFull : Port := { Port.empty with output := [longNote, longNote, longNote] }

/-- A DOWN record and an UP record, both releasable, behind one that is not. -/
def held : List HoldRecord := [⟨false, longNote, false⟩, ⟨false, longNote, true⟩, ⟨true, longNote, true⟩]

theorem witness_ArbiterFillsInOrder :
    (∃ s : State, s.down.output.length < 4 ∧ s.down.own = longNote :: []) ∧
    (∃ s : State, s.up.output.length < 4 ∧ s.dom.linkUp = true ∧ s.up.own = longNote :: []) ∧
    (∃ s : State, s.down.output.length < 4 ∧ s.down.own = [] ∧
      s.gate.hold = [⟨false, longNote, false⟩] ++ ⟨false, longNote, true⟩ :: [⟨true, longNote, true⟩]) ∧
    (∃ s : State, s.up.output.length < 4 ∧ s.dom.linkUp = true ∧ s.up.own = [] ∧
      s.gate.hold = [⟨false, longNote, false⟩, ⟨false, longNote, true⟩] ++ ⟨true, longNote, true⟩ :: []) ∧
    (∃ s : State, s.down.output.length < 4 ∧ s.down.own = [] ∧ s.gate.hold = [] ∧ s.down.forwarded = some longNote) ∧
    (∃ s : State, s.up.output.length < 4 ∧ s.dom.linkUp = true ∧ s.up.own = [] ∧ s.gate.hold = [] ∧
      s.up.forwarded = some longNote) :=
  ⟨⟨{ working with down := { nearlyFull with own := [longNote] } }, by decide, rfl⟩,
   ⟨{ working with up := { nearlyFull with own := [longNote] } }, by decide, rfl, rfl⟩,
   ⟨{ working with gate := ⟨held, false⟩ }, by decide, rfl, rfl⟩,
   ⟨{ working with gate := ⟨held, true⟩ }, by decide, rfl, rfl, rfl⟩,
   ⟨{ working with down := { nearlyFull with forwarded := some longNote } }, by decide, rfl, rfl, rfl⟩,
   ⟨{ working with up := { nearlyFull with forwarded := some longNote } }, by decide, rfl, rfl, rfl, rfl⟩⟩

/-! ## Witnesses: GO -/

/-- Every sequence is the listed steps. -/
def withSteps (s : State) (l : List StepRecord) : State :=
  { s with eng := { s.eng with
      store := writeFrom s.eng.store 0 l, directory := Vector.replicate 7 ⟨0, l.length, 0⟩ } }

/-- A REQUEST waits with the link UP in a platform state. -/
def askedIn (p : Platform) (k : Kind) (payload : List Byte) : State :=
  upIn { working with eng := { Engine.initial with platform := p } } (request k payload)

theorem waiting_askedIn (p : Platform) (k : Kind) (payload : List Byte) :
    (askedIn p k payload).Waiting (request k payload) := waiting_upIn _ _ _ rfl rfl rfl rfl

theorem witness_GoIsRefused_before_the_sequence :
    (askedIn (.rest .standby) .go []).eng.platform ≠ .working ∧ (request .go [0#8, 0#8, 0#8]).payload.length ≠ 4 ∧
    2 < (3#8 : Byte).toNat ∧ 1 < (2#8 : Byte).toNat ∧ ((asked .go [0#8, 0#8, 0#8, 0#8]).dirEntry 0).count = 0 := by decide

/-- A GO for STANDBY over one step with join 1, and over one with join 0. -/
def joined (join : Bool) : State :=
  withSteps (asked .go [0#8, 0#8, 0#8, 1#8]) [⟨.delay none, join, 0x49#8, .continue, .always⟩]

theorem witness_GoIsRefused_by_the_sequence :
    ((joined true).dirEntry 0).count ≠ 0 ∧
    structureFault (joined true) GroupSeen.start ((joined true).rangeOf ((joined true).dirEntry 0)) = some 0 ∧
    structureFault (joined false) GroupSeen.start ((joined false).rangeOf ((joined false).dirEntry 0)) = none ∧
    (0#8 : Byte) ++ (1#8 : Byte) ≠ (joined false).wake.generation ∧
    (0#8 : Byte) ++ (0#8 : Byte) = (joined false).wake.generation := by decide +kernel

/-- A GO for STANDBY over a list of steps. -/
def goOver (l : List StepRecord) : State := withSteps (asked .go [0#8, 0#8, 0#8, 1#8]) l

/-- A list of steps as the sequence that begins at record 0. -/
def numbered (l : List StepRecord) : List PlanStep := l.zipIdx.map fun x => ⟨x.2, x.2, x.1⟩

/-- A DELAY. -/
def pause (join : Bool) (guard : Guard) : StepRecord := ⟨.delay none, join, 0x49#8, .continue, guard⟩

/-- A second ORDER to domain 2, and a second LINE on line 15. -/
def orderAgain : StepRecord := ⟨.order 2 .on false, false, 0#8, .abort, .always⟩
def lineAgain : StepRecord := ⟨.line none 15 false false, false, 0#8, .abort, .always⟩

/-- Five steps of one group. -/
def fiveJoined : List StepRecord := [pause true .always, pause true .always, pause true .always, pause true .always, pause false .always]

theorem joinedFrom_of_all {l : List PlanStep} {a b : Nat} (h : a ≤ b) (hb : b ≤ l.length)
    (hj : ∀ x ∈ (l.take b).drop a, x.step.join = true) : JoinedFrom l a b := by
  refine ⟨h, fun k h1 h2 => ⟨l[k], List.getElem?_eq_getElem (by omega), hj _ ?_⟩⟩
  rw [List.mem_iff_getElem]
  exact ⟨k - a, by rw [List.length_drop, List.length_take]; omega, by simp [show a + (k - a) = k by omega]⟩

/-- The five conditions of R36, each broken at its first step, in its order; and a sequence that breaks none. -/
theorem witness_GoIsRefused_five_conditions :
    ((goOver fiveJoined).BreaksAt (numbered fiveJoined) 4 ⟨4, 4, pause false .always⟩ ∧
      (goOver fiveJoined).rangeOf ((goOver fiveJoined).dirEntry 0) = numbered fiveJoined) ∧
    (∀ s : State, s.BreaksAt (numbered [pause true .always]) 0 ⟨0, 0, pause true .always⟩) ∧
    (∀ s : State, (s.config 2).agent = some 5#6 →
      s.BreaksAt (numbered [⟨.order 2 .off true, true, 0#8, .abort, .always⟩, orderAgain]) 1 ⟨1, 1, orderAgain⟩) ∧
    (∀ s : State, s.BreaksAt (numbered [⟨.line none 15 true false, true, 0#8, .abort, .always⟩, lineAgain]) 1 ⟨1, 1, lineAgain⟩) ∧
    (∀ s : State, s.BreaksAt (numbered [pause true .always, pause false (.armed 15)]) 1 ⟨1, 1, pause false (.armed 15)⟩) ∧
    (∀ (s : State) (p : Nat) (q : PlanStep), ¬ s.BreaksAt (numbered [pause false .always]) p q) := by
  refine ⟨⟨⟨rfl, .inl ⟨by decide, joinedFrom_of_all (by decide) (by decide) (by decide)⟩⟩, by decide +kernel⟩,
    fun s => ⟨rfl, .inr (.inl ⟨rfl, rfl⟩)⟩,
    fun s h => ⟨rfl, .inr (.inr (.inl ⟨0, _, 2, 2, .off, .on, true, false, 5#6, by decide,
      joinedFrom_of_all (by decide) (by decide) (by decide), rfl, rfl, rfl, h, h⟩))⟩,
    fun s => ⟨rfl, .inr (.inr (.inr (.inl ⟨0, _, 15, none, none, true, false, false, false, by decide,
      joinedFrom_of_all (by decide) (by decide) (by decide), rfl, rfl, rfl⟩)))⟩,
    fun s => ⟨rfl, .inr (.inr (.inr (.inr ⟨by decide, joinedFrom_of_all (by decide) (by decide) (by decide), rfl, by decide⟩)))⟩,
    fun s p q ⟨h, hb⟩ => ?_⟩
  match p, h with
  | 0, h =>
    obtain rfl := Option.some.inj h
    rcases hb with ⟨h, _⟩ | ⟨_, h⟩ | ⟨_, _, _, _, _, _, _, _, _, h, _⟩ | ⟨_, _, _, _, _, _, _, _, _, h, _⟩ | ⟨h, _⟩
    · omega
    · exact Bool.noConfusion h
    · omega
    · omega
    · omega
  | _ + 1, h => cases h

theorem witness_GoIsRefused_for_a_pending_wake :
    1#16 &&& (working.wake.enable &&& ~~~working.mask .standby &&& ~~~working.wake.suppressed) ≠ 0#16 := by decide

/-- Domain 2 has agent 5, and every sequence is one ORDER to it. -/
def ordering (s : State) : State :=
  withSteps { s with dom := { s.dom with config := s.dom.config.set 2 { DomainConfig.empty with agent := some 5#6 } } }
    [⟨.order 2 .off true, false, 0x49#8, .abort, .always⟩]

/-- The planned step. -/
def orderStep : PlanStep := ⟨0, 0, ⟨.order 2 .off true, false, 0x49#8, .abort, .always⟩⟩

/-- No domain of `ordering s` names a power-good line where none of s does. -/
theorem railsGood_ordering {s : State} (h : s.dom.config = Vector.replicate 12 DomainConfig.empty) :
    (ordering s).RailsGood := by
  intro d l hl
  have e : ((Vector.replicate 12 DomainConfig.empty).set 2 { DomainConfig.empty with agent := some 5#6 })[d.val].pgLine
      = some l := by rw [← h]; exact hl
  rw [Vector.getElem_set] at e
  split at e <;> simp [DomainConfig.empty] at e

/-- A GO for STANDBY waits, with generation 0. -/
def goFor (mode : Byte) : State := upIn (ordering working) (request .go [0#8, mode, 0#8, 0#8])

theorem witness_AcceptedGoSendsItsFirstOrder (mode : Byte) :
    (goFor mode).Waiting (request .go [0#8, mode, 0#8, 0#8]) ∧ (goFor mode).RailsGood ∧
    (goFor mode).eng.platform = .working ∧ ((goFor mode).config 2).agent = some 5#6 ∧
    (goFor mode).wake.latch = 0#16 ∧ (0#8 : Byte) ++ (0#8 : Byte) = (goFor mode).wake.generation :=
  ⟨waiting_upIn _ _ _ rfl rfl rfl rfl, railsGood_ordering (s := working) rfl, rfl, rfl, rfl, rfl⟩

theorem witness_AcceptedGo_sequence :
    checkSequence (goFor 1#8) 0 = .ok [orderStep] ∧
    ([orderStep].filter fun x => x.step.guard.holds ((goFor 1#8).armedFor .standby) none) = orderStep :: [] ∧
    (∀ k : WakeLine, (goFor 1#8).qual.lines[k].active = false) := by decide +kernel

/-! ## Witnesses: SET -/

theorem working_takes_sets (k : Kind) (p : List Byte) : (asked k p).eng.platform.transitional = false := rfl

/-- A request waits under every premise that the statements about SET, GET and CLEAR share. -/
theorem witness_requests_wait (k : Kind) (p : List Byte) :
    (asked k p).Waiting (request k p) ∧ (request k p).kind = k ∧ (request k p).payload = p ∧
    (asked k p).eng.platform.transitional = false ∧ (asked k p).RailsGood ∧ Memory.wf (asked k p).mgmt.retained = true :=
  ⟨waiting_asked k p, rfl, rfl, rfl, railsGood_of_empty rfl, rfl⟩

theorem witness_SetStepStoreWritesItsRecords :
    ∃ rs : List StepRecord, rs.length = 3 ∧ 125 + rs.length = 128 ∧
      ∃ p, p = [0x01#8, BitVec.ofNat 8 125, BitVec.ofNat 8 rs.length] ++ rs.flatMap bytesOfStep ∧ p.length = 27 :=
  ⟨[orderStep.step, orderStep.step, StepRecord.empty], rfl, rfl, _, rfl, rfl⟩

/-- Boundary bytes of the eight cases of R29, and of a record that is accepted. -/
theorem witness_StepRecordsAreRefusedInEightCases :
    (2 ≤ (0x90#8 : Byte).toNat / 64 ∧ (0x90#8 : Byte).getLsbD 4 = true) ∧ (0xFF#8 : Byte) = 0xFF#8 ∧
    ((0x00#8 : Byte).toNat / 64 = 0 ∧ (0x03#8 : Byte) ≠ 0xFF#8) ∧ 3 < (4#8 : Byte).toNat ∧
    ((0x40#8 : Byte).toNat / 64 = 1 ∧ 15 < (16#8 : Byte).toNat ∧ 1 < (2#8 : Byte).toNat) ∧
    ((0x80#8 : Byte).toNat / 64 = 2 ∧ 1 < (2#8 : Byte).toNat) ∧ ((12#8 : Byte) ≠ 0xFF#8 ∧ 11 < (12#8 : Byte).toNat) ∧
    ¬ ((2 ≤ (0xC0#8 : Byte).toNat / 64 ∧ (0xC0#8 : Byte).getLsbD 4 = true) ∨ 11 < (11#8 : Byte).toNat) := by decide

theorem witness_SetDirectoryAgentMapAndRetainedAreaWrite :
    (∃ es : List DirEntry, 1 ≤ es.length ∧ 6 + es.length = 7 ∧
      ∀ e ∈ es, e.first ≤ 127 ∧ e.count ≤ 32 ∧ e.first + e.count ≤ 128 ∧ e.commit ≤ e.count) ∧
    (∃ ds : List (Option Domain), ds.length = 29 ∧ 34 + ds.length = 63) ∧
    (∃ bs : List Byte, bs.length = 29 ∧ (63 + 1) % 64 = 0) :=
  ⟨⟨[⟨96, 32, 32⟩], by decide⟩, ⟨List.replicate 29 (some 11), by decide⟩, ⟨List.replicate 29 0xFF#8, by decide⟩⟩

/-- A write of records 11 alone that moves the flag needs domain 11 recorded ON; one that moves none needs a holder outside. -/
def holderOn : State :=
  { working with dom := { working.dom with status := working.dom.status.set 11 { DomainStatus.initial with recorded := .on } } }

theorem witness_SetDomainConfigurationWritesRecords :
    (∃ ws : List DomainWrite, 1 ≤ ws.length ∧ ws.length ≤ 7 ∧ 11 + ws.length ≤ 12 ∧
      (∀ w ∈ ws, ∀ a, w.config.agent = some a → a ≠ 0#6 ∧ a ≠ 63#6) ∧
      (∃ w, ws[(11 : Domain).val - 11]? = some w ∧ w.controller = true) ∧ holderOn.recorded 11 = .on) ∧
    (∃ ws : List DomainWrite, ws.length = 7 ∧ 5 + ws.length = 12 ∧ (∀ w ∈ ws, w.controller = false) ∧
      ¬ (5 ≤ working.dom.controller.val)) :=
  ⟨⟨[⟨{ DomainConfig.empty with agent := some 62#6 }, true⟩], by decide, by decide, by decide, by
      intro w hw a ha
      simp only [List.mem_singleton] at hw
      subst hw
      simp only [Option.some.injEq] at ha
      subst ha
      decide, ⟨_, rfl, rfl⟩, rfl⟩,
   ⟨List.replicate 7 ⟨DomainConfig.empty, false⟩, by decide +kernel⟩⟩

/-- An entry with a field test and a WAKE+KEEP action, and one for any message. -/
def wakeEntry : MatchEntry :=
  ⟨true, some 5#6, some .note, true, 31, 31, 24, true, 0xFFFFFFF0#32, 0#32, false, 1, .wakeKeep, 10#6, 0⟩

theorem witness_SetMatchEntryWritesFieldsAndClearsRun :
    wakeEntry.agent = some 5#6 ∧ wakeEntry.kind = some .note ∧ wakeEntry.lsb ≤ wakeEntry.msb ∧ 1 ≤ wakeEntry.qualifier ∧
    wakeEntry.qualifier ≤ 8 ∧ 10 ≤ wakeEntry.source.toNat ∧ wakeEntry.source.toNat ≤ 15 ∧
    ([0x06#8, 23#8, 1#8] ++ bytesOfMatch wakeEntry).length = 18 := by decide

/-- The refusals of R13, R18, R23, R126 and R172: an index or a count at the first value outside its range. -/
theorem witness_SetRefusals_ranges :
    (List.replicate 6 (0#8 : Byte)).length = 3 * (2#8 : Byte).toNat ∧ 7 < (6#8 : Byte).toNat + (2#8 : Byte).toNat ∧
    6 < (7#8 : Byte).toNat ∧ ([] : List Byte).length = 3 * (0#8 : Byte).toNat ∧
    63 < (62#8 : Byte).toNat + (2#8 : Byte).toNat ∧ 62 < (63#8 : Byte).toNat ∧
    (29 < (30#8 : Byte).toNat ∧ ([0x14#8, 0#8, 30#8] ++ List.replicate 30 0#8).length ≤ 33) ∧
    12 < (11#8 : Byte).toNat + (2#8 : Byte).toNat ∧ 11 < (12#8 : Byte).toNat ∧ 7 < (8#8 : Byte).toNat ∧
    24 < (23#8 : Byte).toNat + (2#8 : Byte).toNat ∧ 23 < (24#8 : Byte).toNat := by decide

/-- The refusals of R26, and of R166 for SELECT 0x0B: an index, a count or their sum at the first value outside its range. -/
theorem witness_SetRefusals_steps_and_lines :
    (asked .set [0x01#8, 128#8, 0#8]).Waiting (request .set ([0x01#8, 128#8, 0#8] ++ [])) ∧
    (asked .set [0x01#8, 128#8, 0#8]).eng.platform.transitional = false ∧ 127 < (128#8 : Byte).toNat ∧
    ([] : List Byte).length = 8 * (0#8 : Byte).toNat ∧
    (128 < (126#8 : Byte).toNat + (3#8 : Byte).toNat ∧ (List.replicate 24 (0#8 : Byte)).length = 8 * (3#8 : Byte).toNat) ∧
    (asked .set [0x0B#8, 8#8, 0#8]).Waiting (request .set ([0x0B#8, 8#8, 0#8] ++ [])) ∧ 7 < (8#8 : Byte).toNat ∧
    (8 < (7#8 : Byte).toNat + (2#8 : Byte).toNat ∧ (List.replicate 4 (0#8 : Byte)).length = 2 * (2#8 : Byte).toNat) ∧
    (8 < (0#8 : Byte).toNat + (9#8 : Byte).toNat ∧ (List.replicate 18 (0#8 : Byte)).length = 2 * (9#8 : Byte).toNat) :=
  ⟨waiting_asked _ _, rfl, by decide, rfl, by decide, waiting_asked _ _, by decide, by decide, by decide⟩

/-- Entries that R18, R23 and R126 do not allow, at the first value outside. -/
theorem witness_SetRefusals_entries :
    (∃ b ∈ [12#8], 11 < (b : Byte).toNat ∧ b ≠ 0xFF#8) ∧ 1 + (1#8 : Byte).toNat ≤ 63 ∧
    127 < (128#8 : Byte).toNat ∧ 32 < (33#8 : Byte).toNat ∧ 128 < (97#8 : Byte).toNat + (32#8 : Byte).toNat ∧
    (0#8 : Byte).toNat < (1#8 : Byte).toNat ∧
    (62 < (63#8 : Byte).toNat ∧ (63#8 : Byte) ≠ 0xFF#8) ∧ (15 < (16#8 : Byte).toNat ∧ (16#8 : Byte) ≠ 0xFF#8) ∧
    (0x08#8 : Byte).getLsbD 3 = true ∧ (2#8 : Byte) ∉ [0#8, 1#8, 5#8, 0xFF#8] ∧ 31 < (32#8 : Byte).toNat ∧
    (0#8 : Byte).toNat < (1#8 : Byte).toNat ∧ (0x80 ≤ (0x89#8 : Byte).toNat ∧ ((0x89#8 : Byte) &&& 0x3F#8).toNat < 10) ∧
    (0x80 ≤ (0x90#8 : Byte).toNat ∧ 15 < ((0x90#8 : Byte) &&& 0x3F#8).toNat) := by decide

/-- The refusals of R13 and R14: the holder's record without the flag, the flag to a domain not ON, an agent of two domains
inside the SET, and of one outside it. -/
theorem witness_SetRefusals_domains :
    (0 ≤ working.dom.controller.val ∧ working.dom.controller.val < 0 + [DomainWrite.mk DomainConfig.empty false].length) ∧
    ([DomainWrite.mk DomainConfig.empty true][(11 : Domain).val - 11]? = some ⟨DomainConfig.empty, true⟩ ∧
      (11 : Domain) ≠ working.dom.controller ∧ working.recorded 11 ≠ .on) ∧
    (DomainWrite.mk { DomainConfig.empty with agent := some 5#6 } false).config.agent = some 5#6 ∧
    ((ordering working).config 2).agent = some 5#6 ∧ ((2 : Domain).val < 3 ∨ 3 + 1 ≤ (2 : Domain).val) := by decide +kernel

theorem witness_SetWakeSettingsHoldsSourceZero :
    (asked .set ([0x07#8] ++ bytes16 0#16 ++ bytes16 1#16 ++ bytes16 1#16 ++ bytes16 1#16 ++ [0#8, 0x24#8])).eng.platform
      = .working ∧
    (∀ x, (askedIn (.rest x) .set []).eng.platform = .rest x ∧ (Platform.rest x).transitional = false) := ⟨rfl, fun _ => ⟨rfl, rfl⟩⟩

theorem witness_SetLineQualifiersWritesSettings :
    ∃ xs : List (LineMode × TimeCode), xs.length = 8 ∧ 0 + xs.length = 8 ∧
      ∀ (k : WakeLine) (x : LineMode × TimeCode), 0 ≤ k.val → xs[k.val - 0]? = some x →
        x.1 ≠ (if working.qual.lines[k].level then .high else .low) := by
  refine ⟨List.replicate 8 (.both, 0x24#8), rfl, rfl, fun k x _ hx => ?_⟩
  have hx' : x = (.both, 0x24#8) := by
    rw [List.getElem?_replicate] at hx
    split at hx
    · exact (Option.some.inj hx).symm
    · exact absurd hx (by simp)
  subst hx'
  split <;> decide

theorem witness_SetButtonTimerAndSafeLevelsWrite :
    (request .set [0x0C#8, 0#8, 0xFF#8, 1#8]).payload = [0x0C#8, 0#8, 0xFF#8, 1#8] ∧
    16777215 < (0x01000000#32).toNat ∧ ([0x0D#8] ++ bytes32 0x01000000#32) = [0x0D#8, 1#8, 0#8, 0#8, 0#8] := by decide

theorem witness_EverySetIsBusyInTransitionalStates :
    (askedIn (.entering .standby) .set [0x01#8]).Waiting (request .set [0x01#8]) ∧
    (askedIn (.entering .standby) .set [0x01#8]).eng.platform.transitional = true ∧
    (askedIn .forcing .set [0x16#8]).eng.platform.transitional = true := ⟨waiting_askedIn _ _ _, rfl, rfl⟩

/-! ## Witnesses: GET and CLEAR -/

theorem witness_GetsOfItemsReturnThem :
    125 + 3 ≤ 128 ∧ 6 + 1 ≤ 7 ∧ 5 + 7 ≤ 12 ∧ 0 + 12 ≤ 12 ∧ 32 + 31 ≤ 63 ∧ 22 + 2 ≤ 24 ∧ 0 + 8 ≤ 8 ∧ 255 < 256 ∧
    (asked .get [0x01#8, 125#8, 3#8]).Waiting (request .get [0x01#8, BitVec.ofNat 8 125, BitVec.ofNat 8 3]) :=
  ⟨by decide, by decide, by decide, by decide, by decide, by decide, by decide, by decide, waiting_asked _ _⟩

theorem witness_GetsOfWholeObjectsReturnThem :
    (asked .get [0x0A#8]).Waiting (request .get [0x0A#8]) ∧ (asked .get [0x0A#8]).wake.context = none ∧
    (asked .get [0x10#8]).eng.lastReport = none ∧
    (∃ s : State, s.Waiting (request .get [0x0A#8]) ∧ s.wake.context = some ⟨.standby, .source 0, 1#16, 1#16, 16777215⟩) ∧
    (∃ s : State, s.Waiting (request .get [0x10#8]) ∧
      s.eng.lastReport = some ⟨none, .forced, .override, none, none, 0#12⟩) :=
  ⟨waiting_asked _ _, rfl, rfl,
   ⟨upIn { working with wake := { WakeUnit.initial with context := some ⟨.standby, .source 0, 1#16, 1#16, 16777215⟩ } } _,
     waiting_upIn _ _ _ rfl rfl rfl rfl, rfl⟩,
   ⟨upIn { working with eng := { working.eng with lastReport := some ⟨none, .forced, .override, none, none, 0#12⟩ } } _,
     waiting_upIn _ _ _ rfl rfl rfl rfl, rfl⟩⟩

theorem witness_ClearsOfSourcesRemoveThem :
    (asked .clear ([0x08#8] ++ bytes16 0xFFFF#16)).Waiting (request .clear ([0x08#8] ++ bytes16 0xFFFF#16)) ∧
    (∀ k : WakeLine, (asked .clear ([0x08#8] ++ bytes16 0xFFFF#16)).qual.lines[k].active = false) ∧
    (asked .clear ([0x20#8] ++ bytes16 2#16)).Waiting (request .clear ([0x20#8] ++ bytes16 2#16)) :=
  ⟨waiting_asked _ _, by decide +kernel, waiting_asked _ _⟩

theorem witness_ClearOfRailFaultsFollowsTheTable :
    (0x0800#16).getLsbD (11 : Domain).val = true ∧ (asked .clear ([0x21#8] ++ bytes16 0x0800#16)).RailsGood :=
  ⟨rfl, railsGood_of_empty rfl⟩

theorem witness_ClearOfCountersAndBadSelectors :
    0x15#8 < (0x16#8 : Byte) ∧ (0x22#8 : Byte) ∉ [0x08#8, 0x13#8, 0x20#8, 0x21#8] ∧ [0#8, 0#8].length = 2 ∧
    (0x04#8 : Byte) ∈ [0x04#8, 0x08#8, 0x09#8, 0x0A#8, 0x0F#8, 0x10#8, 0x11#8, 0x12#8, 0x13#8, 0x15#8] := by decide

/-- The selectors that a SET or a GET does not take, with the implied length and without. -/
theorem witness_BadSelectors_lengths :
    ([] : List Byte) = [] ∧ [0#8] ≠ ([] : List Byte) ∧ (List.replicate 9 (0#8 : Byte)).length = 9 ∧
    (List.replicate 8 (0#8 : Byte)).length ≠ 9 ∧ [0#8].length < 2 ∧
    (List.replicate 10 (0#8 : Byte)).length = 5 * (2#8 : Byte).toNat ∧ ([] : List Byte).length = 2 * (0#8 : Byte).toNat ∧
    (∀ k p, (askedIn (.entering .standby) k p).Waiting (request k p)) ∧
    (askedIn (.entering .standby) .set []).eng.platform.transitional = true :=
  ⟨rfl, by decide, by decide, by decide, by decide, by decide, by decide, fun _ _ => waiting_askedIn _ _ _, rfl⟩

theorem witness_LevelModeLinesLatchAtSetAndAtClear :
    (asked .set [0x0B#8, 7#8, 1#8, 4#8, 0#8]).Waiting (request .set [0x0B#8, BitVec.ofNat 8 7, 1#8, 4#8, 0#8]) ∧
    ticks working.wake.window = 0 ∧ working.wake.armed = 0#16 ∧ working.wake.latch.getLsbD (7 + 2) = false ∧
    working.qual.lines[(7 : WakeLine)].level = false ∧
    (∃ s : State, s.Waiting (request .clear ([0x08#8] ++ bytes16 (BitVec.twoPow 16 2))) ∧ s.wake.latch.getLsbD 2 = true ∧
      s.qual.lines[(0 : WakeLine)].mode = .low ∧ s.qual.lines[(0 : WakeLine)].level = false) :=
  ⟨waiting_asked _ _, by decide, by decide, by decide, by decide +kernel,
   ⟨upIn { working with
      wake := { working.wake with latch := 4#16 },
      qual := { working.qual with lines := working.qual.lines.set 0 ⟨.low, 0#8, false, none⟩ } } _,
    waiting_upIn _ _ _ rfl rfl rfl rfl, by decide, by decide +kernel, by decide +kernel⟩⟩

/-! ## Witnesses: traffic and the Matcher -/

/-- An ASK to agent 5, which belongs to domain 2. -/
def askDown : Frame := ⟨5#6, 0#6, .ask, 1#4, false, []⟩

/-- A platform state, an Outstanding Order Table, a Rising set and held records, with the ASK waiting. -/
def gateState (p : Platform) (orders : List OrderEntry) (rising : DomainSet) (hold : List HoldRecord) : State :=
  upIn { working with
    eng := { Engine.initial with platform := p, orders := orders, rising := rising },
    dom := { working.dom with agentMap := working.dom.agentMap.set 4 (some 2) }, gate := ⟨hold, false⟩ } askDown

theorem downMessage_gateState (p : Platform) (o : List OrderEntry) (r : DomainSet) (h : List HoldRecord) :
    (gateState p o r h).DownMessage askDown :=
  ⟨rfl, rfl, rfl, rfl, rfl, rfl, by decide, by decide, .inr (.inl rfl)⟩

/-- The clauses on the orders, the recorded state and the Rising set. Domain 2 is OFF. -/
theorem witness_TrafficPassesTheGateByTheTables :
    (gateState .working [] 0#12 []).mapped 5#6 = some 2 ∧ (upIn working askDown).mapped 5#6 = none ∧
    (gateState .working [] 0#12 []).recorded 2 ≠ .on ∧ (gateState .working [] 0#12 []).recorded 2 ≠ .idle ∧
    (gateState .forcing [] 0#12 []).eng.platform = .forcing ∧
    (∃ o ∈ (gateState .working [⟨2, 5#6, 0#4, .off, none⟩] 0#12 []).eng.orders, o.domain = 2 ∧ o.target ≠ .on) ∧
    (∃ o ∈ (gateState .working [⟨2, 5#6, 0#4, .on, none⟩] 0#12 []).eng.orders, o.domain = 2 ∧ o.target = .on) ∧
    (gateState .working [] 4#12 []).eng.rising.getLsbD (2 : Domain).val = true ∧
    (gateState .working [] 0#12 []).eng.rising.getLsbD (2 : Domain).val = false := by decide +kernel

/-- Held records for the destination, releasable and not; and domain 2 ON. -/
theorem witness_TrafficPassesTheGate_held :
    (∃ r ∈ (gateState .working [] 0#12 [⟨false, askDown, true⟩]).gate.hold,
      r.up = false ∧ r.frame.dest = 5#6 ∧ r.releasable = true) ∧
    (∀ r ∈ (gateState .working [] 0#12 [⟨false, askDown, false⟩]).gate.hold,
      r.up = false → r.frame.dest = 5#6 → r.releasable = false) ∧
    (∃ s : State, s.DownMessage askDown ∧ s.recorded 2 = .on ∧ s.mapped 5#6 = some 2) :=
  ⟨⟨_, List.mem_cons_self, rfl, rfl, rfl⟩, by decide,
   ⟨{ gateState .working [] 0#12 [] with dom := { (gateState .working [] 0#12 []).dom with
        status := Vector.replicate 12 { DomainStatus.initial with recorded := .on } } },
    ⟨rfl, rfl, rfl, rfl, rfl, rfl, by decide, by decide, .inr (.inl rfl)⟩, by decide +kernel, by decide +kernel⟩⟩

/-- A message from agent 5 waits at the Downstream Port. -/
def fromAgent (k : Kind) : Frame := ⟨0#6, 5#6, k, 2#4, false, []⟩

theorem upMessage_downIn (s : State) (k : Kind) (h1 : s.ldr.loading = none) (h2 : s.gate.hold = []) (h3 : s.up.forwarded = none) :
    (downIn s (fromAgent k)).UpMessage (fromAgent k) :=
  ⟨h1, fun _ r hr => by rw [show (downIn s (fromAgent k)).gate.hold = [] from h2] at hr; simp at hr, h3, rfl,
    (by decide : (5#6 : Addr) ≠ 0#6), (by decide : (5#6 : Addr) ≠ 63#6), rfl, rfl⟩

theorem witness_TrafficPassesTheGate_upstream :
    (downIn working (fromAgent .answer)).UpMessage (fromAgent .answer) ∧ (downIn working (fromAgent .answer)).dom.linkUp = true ∧
    (downIn (resting .standby) (fromAgent .answer)).UpMessage (fromAgent .answer) ∧
    (downIn (resting .standby) (fromAgent .answer)).dom.linkUp = false :=
  ⟨upMessage_downIn _ _ rfl rfl rfl, rfl, upMessage_downIn _ _ rfl rfl rfl, rfl⟩

/-- The entry and the payload of section 7.4.1. -/
def fieldEntry (offset msb lsb : Fin 32) (low high : BitVec 32) : MatchEntry :=
  ⟨true, none, none, true, offset, msb, lsb, true, low, high, false, 2, .drop, 0x3F#6, 0⟩

/-- Section 7.4.1: the field test worked in the manual. -/
theorem test_field_test_of_the_manual :
    fieldPresent (fieldEntry 1 23 12 (-2100) (-2000)) [0x02#8, 0xF3#8, 0x80#8, 0x41#8, 0x07#8] = true ∧
    windowWord (fieldEntry 1 23 12 (-2100) (-2000)) [0x02#8, 0xF3#8, 0x80#8, 0x41#8, 0x07#8] = 0xF3804107#32 ∧
    fieldOf (fieldEntry 1 23 12 (-2100) (-2000)) [0x02#8, 0xF3#8, 0x80#8, 0x41#8, 0x07#8] = 2052 ∧
    fieldValue (fieldEntry 1 23 12 (-2100) (-2000)) [0x02#8, 0xF3#8, 0x80#8, 0x41#8, 0x07#8] = -2044 ∧
    testPasses (fieldEntry 1 23 12 (-2100) (-2000)) [0x02#8, 0xF3#8, 0x80#8, 0x41#8, 0x07#8] = true := by decide +kernel

/-- Section 7.4.2: a full-width field, a field below the payload's end, the absent field, the last byte. -/
theorem test_field_limits_of_the_manual :
    fieldValue (fieldEntry 0 31 0 0xFFFFFFF0#32 0#32) [0xFF#8, 0xFF#8, 0xFF#8, 0xF6#8] = -10 ∧
    insideWindow (fieldEntry 0 31 0 0xFFFFFFF0#32 0#32) [0xFF#8, 0xFF#8, 0xFF#8, 0xF6#8] = true ∧
    fieldValue (fieldEntry 1 23 16 0#32 0#32) [0x10#8, 0x20#8, 0x9C#8] = -100 ∧
    testPasses { fieldEntry 1 23 0 0#32 0#32 with outside := true } [0x10#8, 0x20#8, 0x9C#8] = false ∧
    fieldPresent (fieldEntry 31 31 24 0#32 0#32) (List.replicate 32 0#8) = true ∧
    fieldPresent (fieldEntry 31 31 24 0#32 0#32) (List.replicate 31 0#8) = false := by decide +kernel

theorem witness_field_statements :
    wakeEntry.fieldTest = true ∧ (List.replicate 32 (0#8 : Byte)).length ≤ 32 ∧ wakeEntry.lsb ≤ wakeEntry.msb ∧
    8 = wakeEntry.msb.val - wakeEntry.lsb.val + 1 ∧ wakeEntry.signed = true ∧ wakeEntry.low = 0xFFFFFFF0#32 ∧
    wakeEntry.high = 0#32 ∧ wakeEntry.offset.val = 31 ∧ fieldPresent wakeEntry (List.replicate 32 0#8) = true := by decide

/-- Entry 0 selects every message and passes; the rest are empty. -/
def scanning (s : State) (qualifier run : Nat) (action : MatchAction) (source : BitVec 6) : State :=
  downIn { s with matcher := ⟨s.matcher.table.set 0
    { MatchEntry.empty with valid := true, qualifier := qualifier, run := run, action := action, source := source }⟩ }
    (fromAgent .ask)

theorem hits_scanning (s : State) (q r : Nat) (a : MatchAction) (src : BitVec 6) :
    (scanning s q r a src).Hits (fromAgent .ask) 0 := by
  have e : (scanning s q r a src).matcher.table[(0 : Fin 24)] =
      { MatchEntry.empty with valid := true, qualifier := q, run := r, action := a, source := src } :=
    Vector.getElem_set_self ..
  refine ⟨?_, ?_, fun j hj => absurd hj (Fin.not_lt_zero j)⟩
  · rw [e]; exact ⟨rfl, fun _ h => Option.noConfusion rfl (heq_of_eq h), fun _ h => Option.noConfusion rfl (heq_of_eq h)⟩
  · rw [e]; rfl

/-- A hit that does not fire, a hit that fires, and no selecting entry, with the link UP and DOWN. -/
theorem witness_MatcherForwardsAndCountsRuns :
    (scanning working 2 0 .wake 10#6).UpMessage (fromAgent .ask) ∧
    (scanning working 2 0 .wake 10#6).Hits (fromAgent .ask) 0 ∧ (scanning working 1 0 .keep 0x3F#6).Hits (fromAgent .ask) 0 ∧
    (downIn working (fromAgent .ask)).UpMessage (fromAgent .ask) ∧
    (∀ j : Fin 24, (downIn working (fromAgent .ask)).matcher.table[j].valid = false) ∧
    (scanning working 2 0 .wake 10#6).RailsGood :=
  ⟨upMessage_downIn _ _ rfl rfl rfl, hits_scanning .., hits_scanning .., upMessage_downIn _ _ rfl rfl rfl,
   by decide +kernel, railsGood_of_empty rfl⟩

/-- A firing WAKE with the link UP, its source not armed. -/
theorem witness_MatcherForwards_firing :
    (scanning working 1 0 .wake 10#6).UpMessage (fromAgent .ask) ∧ (scanning working 1 0 .wake 10#6).Hits (fromAgent .ask) 0 ∧
    (scanning working 1 0 .wake 10#6).matcher.table[(0 : Fin 24)].qualifier
      ≤ (scanning working 1 0 .wake 10#6).matcher.table[(0 : Fin 24)].run + 1 ∧
    (10#6 : BitVec 6) = BitVec.ofNat 6 (10 : Source).val ∧ (scanning working 1 0 .wake 10#6).wake.armed.getLsbD 10 = false ∧
    ticks (scanning working 1 0 .wake 10#6).wake.window = 0 ∧ (scanning working 1 0 .wake 10#6).up.own = [] :=
  ⟨upMessage_downIn _ _ rfl rfl rfl, hits_scanning .., by decide +kernel, rfl, by decide, by decide, rfl⟩

theorem witness_MatcherDisposesWithTheLinkDown :
    (scanning (resting .standby) 1 0 .wakeKeep 10#6).UpMessage (fromAgent .ask) ∧
    (scanning (resting .standby) 1 0 .wakeKeep 10#6).dom.linkUp = false ∧
    (scanning (resting .standby) 1 0 .wakeKeep 10#6).Hits (fromAgent .ask) 0 ∧
    (10#6 : BitVec 6) = BitVec.ofNat 6 (10 : Source).val ∧ (15#6 : BitVec 6) = BitVec.ofNat 6 (15 : Source).val ∧
    (scanning (resting .standby) 1 0 .wakeKeep 10#6).wake.armed.getLsbD 10 = false ∧
    (scanning (resting .standby) 8 6 .wake 15#6).Hits (fromAgent .ask) 0 ∧
    (scanning (resting .standby) 1 0 .wake 10#6).RailsGood :=
  ⟨upMessage_downIn _ _ rfl rfl rfl, rfl, hits_scanning .., rfl, rfl, by decide, hits_scanning .., railsGood_of_empty rfl⟩

/-! ## Witnesses: members, entry and wake ends, unwinding -/

/-- A running member with a timer. -/
def member (position : Nat) (a : Action) (policy : FailPolicy) : Member :=
  ⟨⟨position, position, ⟨a, true, 0x49#8, policy, .always⟩⟩, .on, true, some 1⟩

/-- ENTERING with running members, their ORDERs and a waiting ORDER-DONE from agent 5. -/
def runningState (p : Platform) (ms : List Member) (orders : List OrderEntry) : State :=
  downIn { resting .standby with eng := { Engine.initial with platform := p, running := ms, orders := orders } }
    ⟨63#6, 5#6, .orderDone, 3#4, false, [3#8]⟩

theorem doneWaits_runningState (p : Platform) (ms : List Member) (o : List OrderEntry) :
    (runningState p ms o).DoneWaits ⟨63#6, 5#6, .orderDone, 3#4, false, [3#8]⟩ :=
  ⟨rfl, rfl, by decide, by decide, rfl, rfl, rfl⟩

/-- Two members run; a third action stands in the first's place. -/
def twoRun (a : Action) (policy : FailPolicy) : State :=
  runningState (.entering .standby) [member 0 a policy, member 1 (.delay none) .continue] [⟨2, 5#6, 3#4, .off, some 0⟩]

theorem runsWith_twoRun (a : Action) (policy : FailPolicy) :
    (twoRun a policy).RunsWith (member 0 a policy) [] [member 1 (.delay none) .continue] :=
  ⟨rfl, by simp, fun x hx => by simp only [List.nil_append, List.mem_singleton] at hx; subst hx; exact (by decide : (1 : Nat) ≠ 0)⟩

/-- OFF is reached where OFF was ordered, and where IDLE was; the member is the manual's reversible ORDER. -/
theorem witness_OrderDoneEndsItsMember :
    (twoRun (.order 2 .off true) .continue).DoneWaits ⟨63#6, 5#6, .orderDone, 3#4, false, [3#8]⟩ ∧
    [3#8] = BitVec.ofNat 8 OrdState.off.code :: [] ∧
    (twoRun (.order 2 .off true) .continue).eng.orders = [] ++ ⟨2, 5#6, 3#4, .off, some 0⟩ :: [] ∧
    (2 : Domain) ≠ (twoRun (.order 2 .off true) .continue).dom.controller ∧
    (runningState (.entering .standby) [] [⟨2, 5#6, 3#4, .idle, some 0⟩]).eng.orders ≠ [] ∧
    (twoRun (.order 2 .off true) .continue).RailsGood :=
  ⟨doneWaits_runningState .., rfl, rfl, by decide, by simp [runningState, downIn], railsGood_of_empty rfl⟩

/-- An ORDER to ON is answered ON while a record is held for its domain. -/
def releaseState : State :=
  downIn { gateState (.waking .standby) [⟨2, 5#6, 3#4, .on, some 0⟩] 4#12 [⟨false, askDown, false⟩] with
    eng := { Engine.initial with
      platform := .waking .standby, orders := [⟨2, 5#6, 3#4, .on, some 0⟩], rising := 4#12,
      running := [member 0 (.order 2 .on false) .continue, member 1 (.delay none) .continue] } }
    ⟨63#6, 5#6, .orderDone, 3#4, false, [BitVec.ofNat 8 OrdState.on.code]⟩

theorem witness_OrderDoneEndsItsMember_release :
    releaseState.DoneWaits ⟨63#6, 5#6, .orderDone, 3#4, false, [BitVec.ofNat 8 OrdState.on.code]⟩ ∧
    releaseState.RunsWith (member 0 (.order 2 .on false) .continue) [] [member 1 (.delay none) .continue] ∧
    releaseState.eng.orders = [] ++ ⟨2, 5#6, 3#4, .on, some 0⟩ :: [] ∧ releaseState.RailsGood ∧
    (2 : Domain) ≠ releaseState.dom.controller ∧ releaseState.released 2 = [⟨false, askDown, true⟩] :=
  ⟨⟨rfl, rfl, by decide, by decide, rfl, rfl, rfl⟩,
   ⟨rfl, by simp, fun x hx => by simp only [List.nil_append, List.mem_singleton] at hx; subst hx; exact (by decide : (1 : Nat) ≠ 0)⟩,
   rfl, railsGood_of_empty rfl, (by decide : (2 : Domain) ≠ 0), by decide +kernel⟩

/-- WAKING with the link DOWN: the controller domain's ORDER to ON is answered ON, with the permit set, while an UP record
and a DOWN record for domain 2 are held. -/
def linkUpState : State :=
  downIn { gateState (.waking .standby) [] 0#12 [] with
    dom := { (gateState (.waking .standby) [] 0#12 []).dom with linkUp := false },
    gate := ⟨[⟨true, askDown, false⟩, ⟨false, askDown, false⟩], true⟩,
    eng := { Engine.initial with
      platform := .waking .standby, orders := [⟨0, 5#6, 3#4, .on, some 0⟩], rising := 1#12,
      running := [member 0 (.order 0 .on false) .continue, member 1 (.delay none) .continue] } }
    ⟨63#6, 5#6, .orderDone, 3#4, false, [BitVec.ofNat 8 OrdState.on.code]⟩

theorem witness_OrderDoneEndsItsMember_link_up :
    linkUpState.DoneWaits ⟨63#6, 5#6, .orderDone, 3#4, false, [BitVec.ofNat 8 OrdState.on.code]⟩ ∧
    linkUpState.RunsWith (member 0 (.order 0 .on false) .continue) [] [member 1 (.delay none) .continue] ∧
    linkUpState.eng.orders = [] ++ ⟨0, 5#6, 3#4, .on, some 0⟩ :: [] ∧ linkUpState.RailsGood ∧
    (0 : Domain) = linkUpState.dom.controller ∧ linkUpState.dom.linkUp = false ∧ linkUpState.gate.permit = true ∧
    linkUpState.released 0 = [⟨true, askDown, false⟩, ⟨false, askDown, false⟩] :=
  ⟨⟨rfl, rfl, by decide, by decide, rfl, rfl, rfl⟩,
   ⟨rfl, by simp, fun x hx => by simp only [List.nil_append, List.mem_singleton] at hx; subst hx; exact (by decide : (1 : Nat) ≠ 0)⟩,
   rfl, railsGood_of_empty rfl, rfl, rfl, rfl, by decide +kernel⟩

/-- R19 and R146: that ORDER-DONE takes the link UP, and the held UP record becomes releasable, the other domain's does not. -/
theorem test_order_done_takes_the_link_up :
    ∃ t, exec .orderDone linkUpState = .next t ∧ t.dom.linkUp = true ∧ t.recorded 0 = .on ∧
      t.gate.hold = [⟨true, askDown, true⟩, ⟨false, askDown, false⟩] := ⟨_, rfl, by decide +kernel⟩

/-- Agent 5 serves domain 2, recorded UNKNOWN. -/
def lateState : State :=
  let s := ordering (runningState .working [] [])
  { s with dom := { s.dom with status := s.dom.status.set 2 { DomainStatus.initial with recorded := .unknown } } }

theorem witness_UnmatchedOrderDoneIsLateOrStray :
    lateState.DoneWaits ⟨63#6, 5#6, .orderDone, 3#4, false, [3#8]⟩ ∧ lateState.servedDomain 5#6 = some 2 ∧
    lateState.recorded 2 = .unknown ∧ (runningState .working [] []).servedDomain 5#6 = none ∧
    4 ≤ (4#8 : Byte).toNat ∧ lateState.RailsGood :=
  ⟨⟨rfl, rfl, by decide, by decide, rfl, rfl, rfl⟩, by decide +kernel, by decide +kernel, by decide +kernel, by decide,
   (railsGood_ordering (s := runningState .working [] []) rfl : (ordering (runningState .working [] [])).RailsGood)⟩

/-- Each kind of member runs with another. -/
theorem witness_StepTimersEndTheirMembers :
    (∀ a ∈ [Action.order 2 .off true, .awaitGood 2 true (some .on), .line none 15 true true, .line (some (2, some .on)) 0 false false,
        .delay none, .delay (some (2, some .off))],
      (twoRun a .continue).RunsWith (member 0 a .continue) [] [member 1 (.delay none) .continue] ∧
      (member 0 a .continue).timer.isSome = true ∧ (twoRun a .continue).RailsGood ∧ (twoRun a .continue).gate.hold = []) :=
  fun a _ => ⟨runsWith_twoRun a _, rfl, railsGood_of_empty rfl, rfl⟩

/-- A LINE that writes the controller domain OFF runs with another, with the link UP. -/
theorem witness_StepTimers_controller_line :
    ∃ s : State, s.RunsWith (member 0 (.line (some (0, some .off)) 0 false false) .continue) [] [member 1 (.delay none) .continue] ∧
      s.RailsGood ∧ s.gate.hold = [] ∧ s.dom.controller = 0 ∧ s.ldr.loading = none ∧ s.dom.linkUp = true :=
  ⟨{ twoRun (.line (some (0, some .off)) 0 false false) .continue with dom := { DomainTable.initial with linkUp := true } },
    ⟨rfl, by simp, fun x hx => by simp only [List.nil_append, List.mem_singleton] at hx; subst hx; exact (by decide : (1 : Nat) ≠ 0)⟩,
    railsGood_of_empty rfl, rfl, rfl, rfl, rfl⟩

/-- The only member, an ORDER under ABORT, with an empty Undo Stack and with a LINE record on it. -/
def abortState (stack : List UndoRecord) : State :=
  { runningState (.entering .standby) [member 0 (.order 2 .off true) .abort] [⟨2, 5#6, 3#4, .off, some 0⟩] with
    eng := { (runningState (.entering .standby) [member 0 (.order 2 .off true) .abort] [⟨2, 5#6, 3#4, .off, some 0⟩]).eng with
      undoStack := stack } }

theorem witness_AbortUnderEnteringUnwinds :
    (abortState []).eng.running = [member 0 (.order 2 .off true) .abort] ∧
    (∃ o, (abortState []).eng.orders = [o] ∧ o.position = some (member 0 (.order 2 .off true) .abort).plan.position) ∧
    (abortState []).RailsGood ∧ (abortState []).dom.linkUp = false ∧ (2 : Domain) ≠ (abortState []).dom.controller ∧
    (abortState [⟨1, .line none 15 true, 0x49#8⟩]).eng.undoStack = ⟨1, .line none 15 true, 0x49#8⟩ :: [] ∧
    ticks 0x49#8 ≠ 0 :=
  ⟨rfl, ⟨_, rfl, rfl⟩, railsGood_of_empty rfl, rfl, by decide, rfl, by decide⟩

/-- The last member runs, a DELAY. -/
def lastState (p : Platform) (abort : Option Source) (required : Bool) : State :=
  { working with
    dom := { working.dom with config := working.dom.config.set 0 { DomainConfig.empty with required := required } },
    eng := { Engine.initial with platform := p, running := [member 0 (.delay none) .continue], abortPending := abort },
    wake := { working.wake with context := some ⟨.standby, .source 0, 1#16, 1#16, 0⟩ } }

theorem railsGood_lastState (p : Platform) (a : Option Source) (b : Bool) : (lastState p a b).RailsGood := by
  intro d l hl
  have e : ((Vector.replicate 12 DomainConfig.empty).set 0 { DomainConfig.empty with required := b })[d.val].pgLine
      = some l := hl
  rw [Vector.getElem_set] at e
  split at e <;> simp [DomainConfig.empty] at e

theorem witness_LastMemberEndsTheEntry :
    (lastState (.entering .standby) none false).RunsLast (member 0 (.delay none) .continue) ∧
    (lastState (.entering .standby) none false).wake.latch &&& (lastState (.entering .standby) none false).wake.armed = 0#16 ∧
    (lastState (.entering .standby) (some 2) false).RunsLast (member 0 (.delay none) .continue) ∧
    (lastState (.entering .standby) (some 2) false).eng.abortPending = some 2 ∧
    (lastState (.entering .standby) (some 2) false).RailsGood :=
  ⟨⟨rfl, rfl⟩, rfl, ⟨rfl, rfl⟩, rfl, railsGood_lastState _ _ _⟩

/-- A record is held for a rising domain at the entry's end. -/
theorem witness_LastMemberEndsTheEntry_held :
    ∃ s : State, s.eng.platform = .entering .standby ∧ s.RunsLast (member 0 (.delay none) .continue) ∧ s.eng.orders = [] ∧
      s.RailsGood ∧ s.eng.abortPending = none ∧ s.wake.latch &&& s.wake.armed = 0#16 ∧
      s.gate.hold.filter s.HeldForRising = [⟨false, askDown, false⟩] ∧ s.up.own.length + 1 < 23 ∧
      s.mgmt.counters.discarded ≤ 255 ∧ s.dom.linkUp = true :=
  ⟨{ gateState (.entering .standby) [] 4#12 [⟨false, askDown, false⟩] with eng := { Engine.initial with
      platform := .entering .standby, rising := 4#12, running := [member 0 (.delay none) .continue] } },
    rfl, ⟨rfl, rfl⟩, rfl, railsGood_of_empty rfl, rfl, rfl, by decide +kernel, by decide, by decide, rfl⟩

/-- ENTERING with the last member running, a pending abort, the link DOWN, an ASK held for the rising domain 2, and a LINE
record with settle time 0 that restores the controller domain to ON. -/
def heldThroughUnwinding : State :=
  { gateState (.entering .standby) [] 4#12 [⟨false, askDown, false⟩] with
    dom := { DomainTable.initial with agentMap := DomainTable.initial.agentMap.set 4 (some 2) },
    eng := { Engine.initial with
      platform := .entering .standby, rising := 4#12, abortPending := some 2,
      running := [member 0 (.delay none) .continue], undoStack := [⟨0, .line (some (0, .on)) 15 true, 0x00#8⟩] } }

/-- R72 and R76: the held ASK leaves at step 4, with the link DOWN, so it is discarded and counted, although step 5 takes the
link UP; of own frames there is the REPORT alone. -/
theorem test_held_ask_leaves_before_the_first_pop :
    ∃ t, exec (.delayExpiry 0) heldThroughUnwinding = .next t ∧ t.dom.linkUp = true ∧ t.gate.hold = [] ∧
      t.mgmt.counters.discarded = 1 ∧ t.up.own.map Frame.kind = [.report] := ⟨_, rfl, by decide +kernel⟩

/-- ENTERING with the last member running and the link UP. A releasable ASK to agent 4 of domain 1, which is ON, stands in the
Hold Queue ahead of an ASK for the rising domain 2. FORCED-OFF is one DELAY, and STANDBY-WAKE is empty. -/
def heldInOrder (last : Action) (config : DomainConfig) (latched : SourceSet) : State :=
  { gateState (.entering .standby) [] 4#12 [⟨false, { askDown with dest := 4#6 }, true⟩, ⟨false, askDown, false⟩] with
    dom := { working.dom with
      agentMap := (working.dom.agentMap.set 3 (some 1)).set 4 (some 2), config := working.dom.config.set 1 config,
      status := working.dom.status.set 1 ⟨.on, .noFault, none, none⟩ },
    wake := { WakeUnit.initial with latch := latched, armed := latched },
    eng := { Engine.initial with
      platform := .entering .standby, rising := 4#12, running := [member 0 last .continue],
      directory := Engine.initial.directory.set 6 ⟨0, 1, 0⟩,
      store := Engine.initial.store.set 0 ⟨.delay none, false, 0x49#8, .continue, .always⟩ } }

/-- R143: the entry's end takes the second record out, and FORCING the first, at one event; they are answered in queue order. A
wake accepted at the entry's end and refused begins FORCING (R62, R63). -/
theorem test_records_leave_in_queue_order_at_a_refused_wake :
    ∃ t, exec (.delayExpiry 0) (heldInOrder (.delay none) DomainConfig.empty 4#16) = .next t ∧ t.eng.platform = .forcing ∧
      t.up.own.map (fun f => (f.kind, f.src)) = [(.report, 63#6), (.answer, 4#6), (.answer, 5#6)] := ⟨_, rfl, by decide +kernel⟩

/-- R143: the same where the Monitor's test at the entry's end latches a SHUTDOWN fault (R155, R156). -/
theorem test_records_leave_in_queue_order_at_a_rail_fault :
    ∃ t, exec (.delayExpiry 0) (heldInOrder (.delay (some (1, some .on)))
        { DomainConfig.empty with pgLine := some 15, monOn := true, policy := .shutdown } 0#16) = .next t ∧
      t.eng.platform = .forcing ∧
      t.up.own.map (fun f => (f.kind, f.src)) = [(.report, 63#6), (.answer, 4#6), (.answer, 5#6)] := ⟨_, rfl, by decide +kernel⟩

theorem witness_LastMemberEndsTheWake :
    (lastState (.waking .standby) none false).RunsLast (member 0 (.delay none) .continue) ∧
    (∀ d : Domain, ((lastState (.waking .standby) none false).config d).required = false) ∧
    ((lastState (.waking .standby) none true).config 0).required = true ∧
    (lastState (.waking .standby) none true).recorded 0 ≠ .on ∧ ((lastState (.waking .standby) none true).dirEntry 6).count = 0 ∧
    (lastState (.waking .standby) none true).RailsGood :=
  ⟨⟨rfl, rfl⟩, by decide +kernel, by decide +kernel, by decide +kernel, by decide +kernel, railsGood_lastState _ _ _⟩

/-- UNWINDING with an undo in flight and the rest of the stack. -/
def undoState (a : UndoAction) (stack : List UndoRecord) : State :=
  let s := ordering (resting .standby)
  { s with eng := { s.eng with
      platform := .unwinding .standby, undo := some ⟨⟨0, a, 0x49#8⟩, some 1⟩, undoStack := stack,
      unwind := some ⟨.stepTimeout, some 3, none⟩ } }

theorem witness_UndoEventsGoOnOrEndTheUnwinding :
    (∀ a stack, (undoState a stack).RailsGood ∧ (undoState a stack).dom.linkUp = false ∧ (undoState a stack).eng.running = [] ∧
      (undoState a stack).eng.orders = [] ∧ (undoState a stack).eng.unwind = some ⟨.stepTimeout, some 3, none⟩ ∧
      (undoState a stack).eng.undo = some ⟨⟨0, a, 0x49#8⟩, some 1⟩ ∧ (undoState a stack).eng.undoStack = stack ∧
      (2 : Domain) ≠ (undoState a stack).dom.controller) ∧
    ((undoState (.order 2 .on) [⟨1, .order 2 .unknown, 0x49#8⟩]).config 2).agent = some 5#6 :=
  ⟨fun a stack => ⟨railsGood_ordering (s := resting .standby) rfl, rfl, rfl, rfl, rfl, rfl, rfl, (by decide : (2 : Domain) ≠ 0)⟩,
   by decide +kernel⟩

/-- An ORDER-DONE matched to the undo's entry: OFF is reached where OFF, and where ON, was ordered. -/
theorem witness_UndoEvents_order_done (target : OrdState) :
    ∃ s : State, s.DoneWaits ⟨63#6, 5#6, .orderDone, 3#4, false, [BitVec.ofNat 8 OrdState.off.code]⟩ ∧
      s.eng.orders = [⟨2, 5#6, 3#4, target, none⟩] ∧ s.RailsGood ∧ s.eng.platform = .unwinding .standby ∧
      s.eng.undo = some ⟨⟨0, .order 2 .on, 0x49#8⟩, some 1⟩ ∧ s.eng.unwind = some ⟨.stepTimeout, some 3, none⟩ ∧
      (2 : Domain) ≠ s.dom.controller ∧ s.gate.hold = [] ∧ s.dom.linkUp = false :=
  ⟨downIn { undoState (.order 2 .on) [] with eng := { (undoState (.order 2 .on) []).eng with
      orders := [⟨2, 5#6, 3#4, target, none⟩] } } _,
    ⟨rfl, rfl, by decide, by decide, rfl, rfl, rfl⟩, rfl, railsGood_ordering (s := resting .standby) rfl, rfl, rfl, rfl,
    (by decide : (2 : Domain) ≠ 0), rfl, rfl⟩

/-! ## Witnesses: the Rail Monitor -/

/-- Domain 1 is monitored on PG15 when ON, under REPORT; it is ON, and the line reads as given. -/
def railState (good : Bool) (fault : RailFault) : State :=
  { resting .standby with
    dom := { DomainTable.initial with
      config := DomainTable.initial.config.set 1 { DomainConfig.empty with pgLine := some 15, monOn := true },
      status := DomainTable.initial.status.set 1 ⟨.on, fault, none, some 1⟩ },
    mon := ⟨Vector.replicate 16 ⟨good, 0⟩⟩ }

theorem witness_PowerGoodChangesCompleteOrLatch :
    (railState true .noFault).pgLevel 15 = true ∧ ((railState true .noFault).config 1).pgLine = some 15 ∧
    ((railState true .noFault).config 1).policy = .report ∧
    ((railState true .noFault).config 1).monitors ((railState true .noFault).recorded 1) = true ∧
    (railState true .noFault).dom.status[(1 : Domain)].fault = .noFault ∧
    (∀ e : Domain, e ≠ 1 → ((railState true .noFault).config e).pgLine = none) ∧
    (resting .standby).pgLevel 15 ≠ true ∧ (∀ e : Domain, ((resting .standby).config e).pgLine = none) ∧
    (railState false .qualifying).dom.status[(1 : Domain)].fault = .qualifying ∧
    (railState false .qualifying).dom.status[(1 : Domain)].blanking.isSome = true ∧
    (railState false .qualifying).pgLevel 15 = false ∧
    ((railState false .qualifying).config 1).monitors ((railState false .qualifying).recorded 1) = true := by decide +kernel

/-- As `railState true`, under SHUTDOWN, in a platform state with a loading or none. -/
def shutState (p : Platform) (loading : Option Loading) : State :=
  { railState true .noFault with
    eng := { Engine.initial with platform := p }, ldr := ⟨loading, .loaded⟩,
    dom := { (railState true .noFault).dom with config :=
      (DomainTable.initial.config.set 1 { DomainConfig.empty with pgLine := some 15, monOn := true, policy := .shutdown }) } }

theorem witness_PowerGoodChanges_shutdown :
    (∀ p l, (shutState p l).eng.platform = p ∧ (shutState p l).ldr.loading = l ∧ (shutState p l).eng.running = [] ∧
      (shutState p l).eng.undo = none) ∧
    (shutState .working none).pgLevel 15 = true ∧ ((shutState .working none).config 1).pgLine = some 15 ∧
    ((shutState .working none).config 1).policy = .shutdown ∧
    ((shutState .working none).config 1).monitors ((shutState .working none).recorded 1) = true ∧
    (shutState .working none).dom.status[(1 : Domain)].fault = .noFault ∧
    (∀ e : Domain, e ≠ 1 → ((shutState .working none).config e).pgLine = none) ∧
    ((shutState (.entering .softoff) none).dirEntry 6).count = 0 :=
  ⟨fun _ _ => ⟨rfl, rfl, rfl, rfl⟩, by decide +kernel⟩

/-- An AWAIT-GOOD member waits for PG15 of domain 1 beside a DELAY. -/
def awaitingState : State :=
  { railState false .noFault with eng := { Engine.initial with
      platform := .waking .standby,
      running := [member 0 (.awaitGood 1 true none) .continue, member 1 (.delay none) .continue] } }

theorem witness_PowerGoodChanges_awaited :
    awaitingState.RunsWith (member 0 (.awaitGood 1 true none) .continue) [] [member 1 (.delay none) .continue] ∧
    awaitingState.pgLevel 15 = false ∧ (awaitingState.config 1).pgLine = some 15 :=
  ⟨⟨rfl, by simp, fun x hx => by simp only [List.nil_append, List.mem_singleton] at hx; subst hx; exact (by decide : (1 : Nat) ≠ 0)⟩,
   by decide +kernel, by decide +kernel⟩

/-- WORKING with the link UP and a CLEAR that names domain 1, whose fault is latched, with PG15 DEASSERTED and blanking 0. -/
def relatchState : State :=
  upIn { railState false .latched with
    eng := { Engine.initial with platform := .working },
    dom := { (railState false .latched).dom with
      linkUp := true, status := DomainTable.initial.status.set 1 ⟨.on, .latched, some .pgLost, none⟩ } }
    (request .clear ([0x21#8] ++ bytes16 2#16))

theorem witness_ClearOfRailFaults_latches_again :
    relatchState.Waiting (request .clear ([0x21#8] ++ bytes16 2#16)) ∧
    ((2#16).getLsbD (1 : Domain).val = true ∧ relatchState.dom.status[(1 : Domain)].fault ≠ .noFault ∧
      ticks (relatchState.config 1).blanking = 0 ∧ (relatchState.config 1).policy = .report ∧
      (relatchState.config 1).monitors (relatchState.recorded 1) = true ∧ (relatchState.config 1).pgLine = some 15 ∧
      relatchState.pgLevel 15 = false) ∧
    relatchState.eng.running = [] ∧ relatchState.eng.undo = none ∧ relatchState.up.own = [] ∧
    (∀ e : Domain, e ≠ 1 → (relatchState.config e).pgLine = none) :=
  ⟨waiting_upIn _ _ _ rfl rfl rfl rfl, by decide +kernel, rfl, rfl, rfl, by decide +kernel⟩

/-! ## Witnesses: wake lines, button, seconds, storms -/

/-- Line 7, source 9, in mode BOTH with the filtered level LOW; source 9 is armed or not. -/
def lineState (p : Platform) (armed : SourceSet) : State :=
  let s := ordering (resting .standby)
  { s with
    eng := { s.eng with platform := p },
    qual := { s.qual with lines := s.qual.lines.set 7 ⟨.both, 0#8, false, none⟩ },
    wake := { s.wake with armed := armed, enable := 0x0201#16 } }

theorem witness_LineChangesLatchTheirSource :
    (lineState .working 0#16).qual.lines[(7 : WakeLine)].level ≠ true ∧
    (lineState .working 0#16).qual.lines[(7 : WakeLine)].mode = .both ∧ (9 : Source).val = (7 : WakeLine).val + 2 ∧
    ticks (lineState .working 0#16).wake.window = 0 ∧ (lineState .working 0#16).wake.armed.getLsbD (9 : Source) = false ∧
    (lineState (.entering .standby) 0x0200#16).wake.armed.getLsbD (9 : Source) = true ∧
    (lineState (.entering .standby) 0x0200#16).eng.abortPending = none ∧
    (resting .standby).qual.lines[(7 : WakeLine)].mode = .disabled := by decide +kernel

/-- The commit point is not reached with none of one step started, and is with it started. -/
theorem witness_LineChanges_commit_point :
    State.commitReached { lineState (.entering .standby) 0x0200#16 with eng := { Engine.initial with
      platform := .entering .standby, plan := some ⟨[orderStep], 0, 0⟩ } } = false ∧
    State.commitReached { lineState (.entering .standby) 0x0200#16 with eng := { Engine.initial with
      platform := .entering .standby, plan := some ⟨[orderStep], 1, 0⟩ } } = true := by decide

theorem railsGood_lineState (p : Platform) (a : SourceSet) : (lineState p a).RailsGood :=
  (railsGood_ordering (s := resting .standby) rfl : (ordering (resting .standby)).RailsGood)

theorem witness_ArmedLatchStartsTheWake :
    checkSequence (lineState (.rest .standby) 0x0200#16) (3 + Sleep.standby.code) = .ok [orderStep] ∧
    ([orderStep].filter fun y => y.step.guard.holds 0x0200#16 (some 9)) = orderStep :: [] ∧
    (0#16 ||| BitVec.twoPow 16 9).getLsbD 9 = true ∧
    (∀ i : Source, i < 9 → (0#16 ||| BitVec.twoPow 16 9).getLsbD i = false ∨ (0x0200#16).getLsbD i = false) ∧
    (lineState (.rest .standby) 0x0200#16).wake.arm = true ∧
    ((lineState (.rest .standby) 0x0200#16).config 2).agent = some 5#6 := by decide +kernel

/-- The button pressed with its timers running. -/
def pressedState (p : Platform) (latched : Bool) (loading : Option Loading) : State :=
  { resting .standby with
    eng := { Engine.initial with platform := p }, ldr := ⟨loading, .loaded⟩,
    qual := { Qualifiers.initial with button :=
      { Button.initial with state := ⟨true, 0⟩, latched := latched, pressTimer := some 0, overrideTimer := some 0 } } }

/-- A press not latched yet, its press timer due, with what is left of the override timer. -/
def withOverride (left : Option Nat) : State :=
  (pressedState .working false none).withButton
    { (pressedState .working false none).qual.button with overrideTimer := left }

theorem witness_ButtonPressesAndReleases :
    (resting .standby).qual.button.state.level = false ∧ ticks (resting .standby).qual.button.pressMinimum ≠ 0 ∧
    (pressedState .working false none).qual.button.state.level = true ∧
    (pressedState .working false none).wake.armed.getLsbD 0 = false ∧
    (pressedState .working false none).qual.button.pressTimer = some 0 ∧
    (pressedState .working false none).qual.button.overrideTimer = some 0 ∧ (0 : Nat) ≤ 0 ∧ ticks 0x00#8 = 0 := by decide

/-- The press timer expires before the override timer. -/
theorem witness_Button_press_timer_expires :
    (withOverride (some 1)).wake.armed.getLsbD 0 = false ∧ (withOverride (some 1)).up.own.length < 23 ∧
    (withOverride (some 1)).qual.button.pressTimer.isSome = true ∧
    (∀ n m, (withOverride (some 1)).qual.button.pressTimer = some n →
      (withOverride (some 1)).qual.button.overrideTimer = some m → n < m) ∧
    (withOverride (some 1)).qual.button.latched = false ∧ (withOverride (some 1)).RailsGood :=
  ⟨by decide, by decide, rfl, by rintro _ _ ⟨⟩ ⟨⟩; decide, rfl, railsGood_of_empty rfl⟩

/-- R118 with v = p: the one event due is the override expiry, which latches source 0, sets latched and overridden and stops
the press timer; with v one tick more the press timer's expiry is due. -/
theorem test_equal_timers_make_one_event :
    dueEvents (withOverride (some 0)) = [.overrideTimerExpiry] ∧ dueEvents (withOverride (some 1)) = [.pressTimerExpiry] ∧
    ∃ t, exec .overrideTimerExpiry (withOverride (some 0)) = .next t ∧ t.wake.latch = 1#16 ∧
      t.qual.button.latched = true ∧ t.qual.button.overridden = true ∧ t.qual.button.pressTimer = none :=
  ⟨by decide +kernel, by decide +kernel, _, rfl, by decide +kernel, by decide +kernel, by decide +kernel, by decide +kernel⟩

/-- SOFTOFF, FORCING, WORKING under a REINIT, and STANDBY with FORCED-OFF empty. -/
theorem witness_OverrideForcesThePartOff :
    (∀ p l, (pressedState p true l).RailsGood ∧ (pressedState p true l).qual.button.overrideTimer.isSome = true ∧
      (pressedState p true l).qual.button.latched = true ∧ (pressedState p true l).eng.orders = [] ∧
      (pressedState p true l).eng.platform = p ∧ (pressedState p true l).ldr.loading = l) ∧
    ((pressedState (.rest .standby) true none).dirEntry 6).count = 0 :=
  ⟨fun _ _ => ⟨railsGood_of_empty rfl, rfl, rfl, rfl, rfl, rfl⟩, by decide +kernel⟩

/-- FORCED-OFF is one ORDER. -/
theorem witness_Override_forced_off_sequence :
    checkSequence (ordering (pressedState .working true none)) 6 = .ok [orderStep] ∧
    ([orderStep].filter fun y => y.step.guard.holds 0#16 none) = orderStep :: [] ∧
    ((ordering (pressedState .working true none)).config 2).agent = some 5#6 ∧
    (ordering (pressedState .working true none)).RailsGood :=
  ⟨by decide +kernel, by decide, by decide +kernel,
    (railsGood_ordering (s := pressedState .working true none) rfl : (ordering (pressedState .working true none)).RailsGood)⟩

/-- FORCING as the override starts it, no override timer running, with FORCED-OFF's last member, a DELAY, running. -/
def forcedOffState : State :=
  { lastState .forcing none false with
    eng := { (lastState .forcing none false).eng with forcingCause := some ⟨.override, none, none⟩ },
    gate := ⟨[⟨true, askDown, false⟩], false⟩ }

theorem witness_Override_end_of_forced_off :
    forcedOffState.eng.platform = .forcing ∧ forcedOffState.RunsLast (member 0 (.delay none) .continue) ∧
    (member 0 (.delay none) .continue).timer.isSome = true ∧
    (member 0 (.delay none) .continue).plan.step.action = .delay none ∧ forcedOffState.eng.orders = [] ∧
    forcedOffState.RailsGood ∧ forcedOffState.eng.forcingCause = some ⟨.override, none, none⟩ ∧
    forcedOffState.up.own = [] ∧ forcedOffState.qual.button.overrideTimer = none :=
  ⟨rfl, ⟨rfl, rfl⟩, rfl, rfl, rfl, railsGood_lastState .forcing none false, rfl, rfl, rfl⟩

theorem witness_SecondsStepsCount :
    (resting .standby).qual.wakeTimer ≠ 1 ∧
    (∃ s : State, s.qual.wakeTimer = 1 ∧ s.wake.armed.getLsbD 1 = false ∧ ticks s.wake.window = 0 ∧ s.RailsGood) ∧
    (∃ s : State, s.qual.sleepCount = 16777215 ∧ s.qual.sleepCounting = true ∧ s.RailsGood) :=
  ⟨by decide, ⟨{ resting .standby with qual := { Qualifiers.initial with wakeTimer := 1 } }, rfl, by decide, by decide,
     railsGood_of_empty rfl⟩,
   ⟨{ resting .standby with qual := { Qualifiers.initial with sleepCount := 16777215 } }, rfl, rfl, railsGood_of_empty rfl⟩⟩

/-- R123: the count stays at its greatest value. -/
theorem test_sleep_count_stays_at_its_limit :
    (stepSleep { resting .standby with qual := { Qualifiers.initial with sleepCount := 16777215 } }).qual.sleepCount
      = 16777215 := by decide

/-- The Storm Monitor enabled with a threshold, source 9 enabled, its count one short of the threshold or lower. -/
def stormState (threshold : Nat) (armed : SourceSet) : State :=
  let s := lineState (.rest .standby) armed
  { s with wake := { s.wake with window := 0x49#8, windowTimer := some 0, threshold := threshold } }

theorem witness_StormsAreCountedAndSuppressed :
    (stormState 1 0x0200#16).wake.windowTimer.isSome = true ∧ ticks (stormState 1 0x0200#16).wake.window ≠ 0 ∧
    (stormState 1 0x0200#16).wake.enable.getLsbD (9 : Source) = true ∧
    (stormState 1 0x0200#16).wake.suppressed.getLsbD (9 : Source) = false ∧
    (stormState 1 0x0200#16).wake.threshold ≤ (stormState 1 0x0200#16).wake.stormCount[(9 : Source)] + 1 ∧
    (stormState 2 0#16).wake.stormCount[(9 : Source)] + 1 < (stormState 2 0#16).wake.threshold ∧
    (stormState 2 0#16).wake.armed.getLsbD (9 : Source) = false := by decide +kernel

/-! ## Witnesses: the Loader -/

/-- A loading in a phase, at power-on or under a REINIT. -/
def loadingState (byReinit : Bool) (phase : LoadPhase) : State :=
  { (if byReinit then working else resting .softoff) with
    ldr := ⟨some ⟨byReinit, phase, false, none⟩, .loaded⟩,
    mgmt := { Management.initial with serving := if byReinit then some 3#4 else none } }

/-- The image of 8 bytes, with a record area of one padding byte, and of the greatest unit count. -/
theorem witness_TheImageIsJudged :
    1 ≤ ((0#8 : Byte) ++ (1#8 : Byte)).toNat ∧ ((0x0F#8 : Byte) ++ (0xFF#8 : Byte)).toNat = 4095 ∧
    4095 < ((0x10#8 : Byte) ++ (0x00#8 : Byte)).toNat ∧ ((0#8 : Byte) ++ (0#8 : Byte)).toNat = 0 ∧
    [0#8].length + 7 = (((0#8 : Byte) ++ (1#8 : Byte)).toNat + 1) * 4 ∧
    (loadingState true .header).mgmt.serving = some 3#4 ∧ (loadingState true .header).dom.linkUp = true ∧
    (loadingState true .header).RailsGood :=
  ⟨by decide, by decide, by decide, by decide, by decide, rfl, rfl, railsGood_of_empty rfl⟩

/-- A REINIT's loading with every domain recorded ON, the link UP, PG0 ASSERTED and an event deferred or none. -/
def reinitState (phase : LoadPhase) (deferred : Option ReportCause) : State :=
  { loadingState true phase with
    ldr := ⟨some ⟨true, phase, false, deferred⟩, .loaded⟩, mon := ⟨Vector.replicate 16 ⟨true, 0⟩⟩,
    dom := { DomainTable.initial with status := Vector.replicate 12 ⟨.on, .noFault, none, none⟩, linkUp := true } }

/-- The clauses of TheImageIsJudged on a failed REINIT, and those of LoaderRecordsAreApplied and FallbackTablesAreInstalled on
the end of one. -/
theorem witness_ReinitEnds (phase : LoadPhase) (deferred : Option ReportCause) :
    (reinitState phase deferred).ldr.loading = some ⟨true, phase, false, deferred⟩ ∧
    (reinitState phase deferred).mgmt.serving = some 3#4 ∧ (reinitState phase deferred).dom.linkUp = true ∧
    (∀ d, (reinitState phase deferred).recorded d = .on) ∧ (reinitState phase deferred).pgLevel 0 = true ∧
    (reinitState phase deferred).up.own = [] ∧ (reinitState phase deferred).RailsGood ∧
    (reinitState phase deferred).eng.platform = .working ∧ (reinitState phase deferred).eng.running = [] ∧
    (reinitState phase deferred).eng.undo = none ∧ ((reinitState phase deferred).dirEntry 6).count = 0 :=
  ⟨rfl, rfl, rfl, fun d => by simp [State.recorded, reinitState], by simp [State.pgLevel, reinitState], rfl, railsGood_of_empty rfl, rfl, rfl, rfl,
    rfl⟩

theorem witness_LoaderRecordsAreApplied :
    (∀ phase, (loadingState false phase).ldr.loading = some ⟨false, phase, false, none⟩ ∧ (loadingState false phase).RailsGood ∧
      (loadingState false phase).qual.afterLoss = .stayOff) ∧
    (loadingState false .header).dom.linkUp =
      decide ((loadingState false .header).recorded (loadingState false .header).dom.controller = .on) :=
  ⟨fun _ => ⟨rfl, railsGood_of_empty rfl, rfl⟩, by decide +kernel⟩

theorem witness_FallbackTablesAreInstalled :
    (∀ d, (loadingState false .header).recorded d = .off) ∧ (loadingState false .header).dom.linkUp = false ∧
    (loadingState false .header).eng.platform = .rest .softoff ∧ (loadingState false .header).wake.suppressed = 0#16 ∧
    (0x00#8 : Byte) ≠ 0xD5#8 ∧ (0#16 : BitVec 16) ≠ crc16 ([0xD5#8, 0x1E#8, 0x01#8, 0#8, 1#8] ++ [0#8]) ∧
    32 < (33#8 : Byte).toNat ∧ [0#8].length + 1 < (3#8 : Byte).toNat ∧
    (0x0D#8 : Byte) ∈ [0x0D#8, 0x14#8, 0x16#8, 0x04#8, 0x20#8] := by decide +kernel

/-! ## Witnesses: layouts and laws of every step -/

theorem witness_RecordBytesReadBack :
    (96 ≤ 127 ∧ 32 ≤ 32 ∧ 96 + 32 ≤ 128) ∧ stepOfBytes (bytesOfStep orderStep.step) = some orderStep.step ∧
    matchOfBytes (bytesOfMatch wakeEntry) = some wakeEntry := by decide +kernel

theorem witness_EngineTimersLeaveTablesAndSettings :
    Instr.delayExpiry 31 ∈ [Instr.orderTimeout 31, .awaitGoodTimeout 31, .lineSettleExpiry 31, .delayExpiry 31,
      .undoOrderTimeout, .undoLineSettleExpiry, .blankingExpiry 11] := by decide

/-- A rest state meets the laws that every step keeps, and takes a step. -/
theorem witness_EveryStepKeepsTheLaws :
    (resting .standby).Bounded ∧ (resting .standby).SourceZeroHeld ∧ (resting .standby).ArmedRight ∧
    (resting .standby).LinkRight ∧ (resting .standby).QuietWhenDown :=
  ⟨by constructor <;> decide, by constructor <;> decide +kernel,
   ⟨rfl, (by decide : 0#16 &&& 1#16 = 0#16), fun h => Bool.noConfusion h, fun _ h => Option.noConfusion rfl (heq_of_eq h)⟩,
   by unfold State.LinkRight; decide +kernel, fun _ => ⟨rfl, rfl, rfl⟩⟩

theorem witness_EveryStepKeepsTheEngineTables : (resting .standby).EngineRight where
  atRest _ := ⟨rfl, rfl, rfl, rfl⟩
  members := by decide
  positions := .nil
  agents := .nil
  structured := rfl
  unstarted := .nil
  apart _ h := nomatch h
  orders := by decide
  ordersApart := .nil
  ordersRun _ h := nomatch h
  ordersUndo _ h := nomatch h
  undoing _ h := nomatch h
  stack := by decide
  stackRoom _ h := nomatch h
  stackEmpty _ _ := rfl
  abort h := nomatch h
  cause h := nomatch h
  forcingRising h := nomatch h
  directory := by decide +kernel

theorem witness_EveryStepKeepsTheLaws_step :
    ∃ t, step ((resting .standby).withPending [.buttonRelease]) = .next t := ⟨_, rfl⟩

/-! ## Worked events of the manual -/

/-- Section 10.11: the SET that loads one step, with its eight record bytes, writes step 12 and is answered OK. -/
theorem test_worked_request_of_the_manual :
    ∃ t, exec .setStepStore (asked .set [0x01#8, 12#8, 1#8, 0x10#8, 0x02#8, 0x00#8, 0x00#8, 0xFF#8, 0x8D#8, 0x00#8, 0x00#8])
        = .next t ∧
      t.eng.store[12] = ⟨.order 2 .on true, false, 0x8D#8, .abort, .always⟩ ∧
      t.up.own = [⟨0#6, 63#6, .result, 3#4, false, [0x00#8]⟩] := ⟨_, rfl, by decide +kernel, by decide +kernel⟩

/-- Section 10.11: with count 4 and 11 bytes the same SET is answered BAD-KIND, code 4. -/
theorem test_worked_request_with_bad_count :
    ∃ t, exec .setStepStore (asked .set [0x01#8, 12#8, 4#8, 0x10#8, 0x02#8, 0x00#8, 0x00#8, 0xFF#8, 0x8D#8, 0x00#8, 0x00#8])
        = .next t ∧
      t.up.own = [⟨0#6, 63#6, .result, 3#4, false, [0x04#8]⟩] := ⟨_, rfl, by decide +kernel⟩

/-- Section 5.10 before the third edge of WL0: latch {2}, generation 41, Armed set {0, 1, 2, 10}, count 2, threshold 3. -/
def thirdEdge : State :=
  { working with
    eng := { Engine.initial with platform := .entering .standby },
    wake := { WakeUnit.initial with
      latch := 4#16, generation := 41#16, enable := 0x0407#16, armed := 0x0407#16, arm := false, threshold := 3,
      window := 0xE8#8, stormCount := WakeUnit.initial.stormCount.set 2 2, windowTimer := some 9 } }

/-- Section 5.10, the third edge: source 2 is suppressed and leaves the Armed set, and EVENT STORM is queued. -/
theorem test_storm_of_the_manual :
    (latchEvent 2 thirdEdge).1.wake.latch = 4#16 ∧ (latchEvent 2 thirdEdge).1.wake.generation = 41#16 ∧
    (latchEvent 2 thirdEdge).1.wake.armed = 0x0403#16 ∧ (latchEvent 2 thirdEdge).1.wake.suppressed = 4#16 ∧
    (latchEvent 2 thirdEdge).1.wake.stormCount[2] = 3 ∧ (latchEvent 2 thirdEdge).1.eng.abortPending = none ∧
    (latchEvent 2 thirdEdge).1.up.own = [⟨0#6, 63#6, .event, 0#4, false, [2#8, 2#8]⟩] := by decide +kernel

end Sys2Proof.Tests
end

section
/-! SUPPORT. The field test (R129 to R131), stage by stage: presence, the window word, the field, its value and the window.
The statements O32, O33 and O34 are settled from these lemmas. -/

namespace Sys2Proof.Machine

/-! ## Presence (R129) -/

@[simp] theorem fieldPresent_iff (e : MatchEntry) (p : List Byte) :
    fieldPresent e p = true ↔ e.offset.val + (31 - e.lsb.val) / 8 < p.length := by
  simp [fieldPresent]

/-- An absent field fails the test, whatever the sense. -/
theorem testPasses_of_absent {e : MatchEntry} {p : List Byte} (htest : e.fieldTest = true)
    (habsent : p.length ≤ e.offset.val + (31 - e.lsb.val) / 8) : testPasses e p = false := by
  have hp : fieldPresent e p = false := by simpa [fieldPresent] using habsent
  simp [testPasses, htest, hp]

/-- With the field present the window and the sense decide. -/
theorem testPasses_of_present {e : MatchEntry} {p : List Byte} (htest : e.fieldTest = true)
    (hp : fieldPresent e p = true) : testPasses e p = (insideWindow e p != e.outside) := by
  simp only [testPasses, htest, hp, Bool.not_true, Bool.false_or, Bool.true_and]

/-- Settles O32: presence is the stage that the test's two lemmas split on, and lsb is at most 31. -/
theorem fieldPresenceDecidesTheFieldTest : Obligations.FieldPresenceDecidesTheFieldTest := by
  intro e p htest hlen
  have hlsb := e.lsb.isLt
  refine ⟨testPasses_of_absent htest, fun hp => testPasses_of_present htest ((fieldPresent_iff e p).2 hp), by omega, by omega,
    fun hzero => testPasses_of_absent htest (by omega), fun hlast => ?_⟩
  constructor
  · intro hp
    constructor <;> omega
  · rintro ⟨hfull, hhigh⟩
    omega

/-! ## The window word (R130) -/

theorem payloadByte_eq (p : List Byte) (i : Nat) : payloadByte p i = if i < 32 then (p[i]?).getD 0#8 else 0#8 := by
  unfold payloadByte
  rw [List.getElem?_take]
  split <;> rfl

/-- Bytes behind the payload's end leave the payload's own bytes as they are. -/
theorem payloadByte_append {p : List Byte} (extra : List Byte) {i : Nat} (hi : i < p.length) :
    payloadByte (p ++ extra) i = payloadByte p i := by
  rw [payloadByte_eq, payloadByte_eq, List.getElem?_append_left hi]

theorem toNat_append_byte {n : Nat} (x : BitVec n) (b : Byte) : (x ++ b).toNat = x.toNat * 2 ^ 8 + b.toNat := by
  rw [BitVec.toNat_append, ← Nat.shiftLeft_add_eq_or_of_lt b.isLt, Nat.shiftLeft_eq]

theorem word32_toNat (a b c d : Byte) :
    (word32 a b c d).toNat = a.toNat * 2 ^ 24 + b.toNat * 2 ^ 16 + c.toNat * 2 ^ 8 + d.toNat := by
  simp only [word32, toNat_append_byte]
  omega

/-- Bit j of the window word is bit j mod 8 of the byte that R129 names for it. -/
theorem windowWord_getLsbD (e : MatchEntry) (p : List Byte) {j : Nat} (hj : j < 32) :
    (windowWord e p).getLsbD j = (payloadByte p (e.offset.val + (31 - j) / 8)).getLsbD (j % 8) := by
  simp only [windowWord, word32, BitVec.getLsbD_append]
  obtain h | h | h | h : j / 8 = 0 ∨ j / 8 = 1 ∨ j / 8 = 2 ∨ j / 8 = 3 := by omega
  · simp [show j < 8 by omega, show (31 - j) / 8 = 3 by omega, show j % 8 = j by omega]
  · simp [show ¬ j < 8 by omega, show j - 8 < 8 by omega, show (31 - j) / 8 = 2 by omega, show j % 8 = j - 8 by omega]
  · simp [show ¬ j < 8 by omega, show ¬ j - 8 < 8 by omega, show j - 8 - 8 < 8 by omega, show (31 - j) / 8 = 1 by omega,
      show j % 8 = j - 8 - 8 by omega]
  · simp [show ¬ j < 8 by omega, show ¬ j - 8 < 8 by omega, show ¬ j - 8 - 8 < 8 by omega, show (31 - j) / 8 = 0 by omega,
      show j % 8 = j - 8 - 8 - 8 by omega]

/-! ## The field (R130) -/

theorem lsb_add_width {e : MatchEntry} (hle : e.lsb ≤ e.msb) : e.lsb.val + e.width = e.msb.val + 1 := by
  have : e.lsb.val ≤ e.msb.val := hle
  unfold MatchEntry.width
  omega

theorem fieldOf_lt (e : MatchEntry) (p : List Byte) : fieldOf e p < 2 ^ e.width :=
  Nat.mod_lt _ (Nat.two_pow_pos _)

theorem fieldOf_testBit (e : MatchEntry) (p : List Byte) (i : Nat) :
    (fieldOf e p).testBit i = (decide (i < e.width) && (windowWord e p).getLsbD (e.lsb.val + i)) := by
  rw [fieldOf, Nat.testBit_mod_two_pow, Nat.testBit_div_two_pow, BitVec.testBit_toNat, Nat.add_comm i]

/-- A field of the full width is the window word itself. -/
theorem fieldOf_full {e : MatchEntry} (p : List Byte) (hmsb : e.msb.val = 31) (hlsb : e.lsb.val = 0) :
    fieldOf e p = (windowWord e p).toNat := by
  have hw : e.width = 32 := by simp [MatchEntry.width, hmsb, hlsb]
  rw [fieldOf, hlsb, hw, Nat.pow_zero, Nat.div_one]
  exact Nat.mod_eq_of_lt (windowWord e p).isLt

/-- Every bit of a present field lies in a byte up to the one that holds the field's lowest bit. -/
theorem fieldOf_append {e : MatchEntry} {p : List Byte} (extra : List Byte) (hle : e.lsb ≤ e.msb)
    (hp : fieldPresent e p = true) : fieldOf e (p ++ extra) = fieldOf e p := by
  rw [fieldPresent_iff] at hp
  apply Nat.eq_of_testBit_eq
  intro i
  rw [fieldOf_testBit, fieldOf_testBit]
  by_cases hi : i < e.width
  · have hbit : e.lsb.val + i < 32 := by have := lsb_add_width hle; have := e.msb.isLt; omega
    have hbyte : e.offset.val + (31 - (e.lsb.val + i)) / 8 < p.length := by omega
    rw [windowWord_getLsbD e _ hbit, windowWord_getLsbD e _ hbit, payloadByte_append extra hbyte]
  · simp [hi]

/-- Settles O33: the word by its bytes, the field by its bits. -/
theorem fieldIsCutFromTheWindowWord : Obligations.FieldIsCutFromTheWindowWord := by
  intro e p byte hle hbyte
  have hword (i : Nat) : (payloadByte p i).toNat = byte i := by rw [hbyte, payloadByte_eq]; split <;> rfl
  have hwidth := lsb_add_width hle
  have hmsb := e.msb.isLt
  refine ⟨?_, Nat.le_add_left .., (by omega : e.width ≤ 32), rfl, Nat.le_sub_one_of_lt (fieldOf_lt e p), fun i hi => ?_,
    fieldOf_full p, fun extra hp => fieldOf_append extra hle ((fieldPresent_iff e p).2 hp)⟩
  · simp only [windowWord, word32_toNat, hword]
  · have hi' : i < e.width := hi
    simp [fieldOf_testBit, hi']

/-! ## The value and the window (R131) -/

theorem fieldValue_of_negative {e : MatchEntry} {p : List Byte} (hs : e.signed = true)
    (hbig : 2 ^ (e.width - 1) ≤ fieldOf e p) : fieldValue e p = (fieldOf e p : Int) - 2 ^ e.width :=
  if_pos ⟨hs, hbig⟩

theorem fieldValue_of_nonneg {e : MatchEntry} {p : List Byte} (h : e.signed = false ∨ fieldOf e p < 2 ^ (e.width - 1)) :
    fieldValue e p = (fieldOf e p : Int) := by
  refine if_neg fun hneg => ?_
  obtain ⟨hs, hbig⟩ := hneg
  obtain h | h := h
  · simp [hs] at h
  · omega

theorem two_pow_width (e : MatchEntry) : 2 ^ e.width = 2 * 2 ^ (e.width - 1) := by
  rw [← Nat.pow_succ', Nat.succ_eq_add_one, show e.width - 1 + 1 = e.width from Nat.sub_add_cancel (Nat.le_add_left ..)]

/-- A signed value lies in the two's complement range of the field's width. -/
theorem fieldValue_signed_range {e : MatchEntry} (p : List Byte) (hs : e.signed = true) :
    -(2 ^ (e.width - 1) : Int) ≤ fieldValue e p ∧ fieldValue e p ≤ 2 ^ (e.width - 1) - 1 := by
  have hlt := fieldOf_lt e p
  have hpow := two_pow_width e
  have hpowInt : (2 : Int) ^ e.width = 2 * 2 ^ (e.width - 1) := mod_cast hpow
  have hhalf : ((2 ^ (e.width - 1) : Nat) : Int) = 2 ^ (e.width - 1) := by push_cast; rfl
  by_cases hbig : 2 ^ (e.width - 1) ≤ fieldOf e p
  · rw [fieldValue_of_negative hs hbig]
    omega
  · rw [fieldValue_of_nonneg (.inr (Nat.lt_of_not_le hbig))]
    omega

/-- A signed field of width 32 is the window word as two's complement. -/
theorem fieldValue_signed_full {e : MatchEntry} (p : List Byte) (hs : e.signed = true) (hle : e.lsb ≤ e.msb)
    (hw : e.width = 32) : fieldValue e p = (windowWord e p).toInt := by
  have hsum := lsb_add_width hle
  have hmsb := e.msb.isLt
  have hF : fieldOf e p = (windowWord e p).toNat := fieldOf_full p (by omega) (by omega)
  rw [BitVec.toInt_eq_toNat_cond]
  split
  next hsmall => rw [fieldValue_of_nonneg (.inr (by rw [hw, hF]; omega)), hF]
  next hbig =>
    rw [fieldValue_of_negative hs (by rw [hw, hF]; omega), hF, hw]
    rfl

theorem boundValue_of_signed {e : MatchEntry} (b : BitVec 32) (hs : e.signed = true) : boundValue e b = b.toInt :=
  if_pos hs

theorem boundValue_of_unsigned {e : MatchEntry} (b : BitVec 32) (hs : e.signed = false) : boundValue e b = (b.toNat : Int) :=
  if_neg (by simp [hs])

theorem insideWindow_iff (e : MatchEntry) (p : List Byte) :
    insideWindow e p = true ↔ boundValue e e.low ≤ fieldValue e p ∧ fieldValue e p ≤ boundValue e e.high :=
  decide_eq_true_iff

/-- No value is inside an empty window. -/
theorem insideWindow_of_empty {e : MatchEntry} (p : List Byte) (hempty : boundValue e e.high < boundValue e e.low) :
    insideWindow e p = false := by
  rw [Bool.eq_false_iff, ne_eq, insideWindow_iff]
  omega

/-- Settles O34: the value by its two readings, the window by its bounds, the test by its sense. -/
theorem fieldValueIsPlacedAgainstTheWindow : Obligations.FieldValueIsPlacedAgainstTheWindow := by
  intro e p w hle hw
  obtain rfl : w = e.width := hw
  refine ⟨fieldValue_of_negative, fieldValue_of_nonneg, fieldValue_signed_range p, fun hs hone => ?_,
    fun hs hfull => fieldValue_signed_full p hs hle hfull,
    fun hs => ⟨boundValue_of_signed _ hs, boundValue_of_signed _ hs⟩,
    fun hs => ⟨boundValue_of_unsigned _ hs, boundValue_of_unsigned _ hs⟩, insideWindow_iff e p,
    fun htest hp => ?_, fun hlow hhigh => ⟨fun hs => ?_, fun hs => ?_⟩⟩
  · obtain ⟨hmin, hmax⟩ := fieldValue_signed_range p hs
    rw [hone] at hmin hmax
    omega
  · rw [testPasses_of_present htest hp]
    refine ⟨fun hin => ?_, fun hout => ?_, fun hempty => ?_⟩
    · simp [hin]
    · simp [hout]
    · simp [insideWindow_of_empty p hempty]
  · rw [insideWindow_iff, boundValue_of_signed _ hs, boundValue_of_signed _ hs, hlow, hhigh]
    rfl
  · apply insideWindow_of_empty
    rw [boundValue_of_unsigned _ hs, boundValue_of_unsigned _ hs, hlow, hhigh]
    decide

end Sys2Proof.Machine
end

section
/-! SUPPORT. The induction over the commands, packaged once: what a command writes outside the blocks that the laws read,
and the operations through which a command reaches those blocks. A property that survives each of them is kept by every
step. -/

namespace Sys2Proof.Machine

/-! ## Writes outside the blocks that the laws read -/

/-- The Domain Table, the Engine, the Wake Unit, the loading and the queue of commands stay; the capacities and ranges and
a quiet link are kept. -/
structure Outside (s t : State) : Prop where
  dom     : t.dom = s.dom
  eng     : t.eng = s.eng
  wake    : t.wake = s.wake
  loading : t.ldr.loading = s.ldr.loading
  pending : t.pending = s.pending
  bounded : s.Bounded → t.Bounded
  quiet   : s.QuietWhenDown → t.QuietWhenDown

theorem Outside.refl (s : State) : Outside s s := ⟨rfl, rfl, rfl, rfl, rfl, id, id⟩

theorem Outside.trans {s t u : State} (h : Outside s t) (k : Outside t u) : Outside s u where
  dom := k.dom.trans h.dom
  eng := k.eng.trans h.eng
  wake := k.wake.trans h.wake
  loading := k.loading.trans h.loading
  pending := k.pending.trans h.pending
  bounded := k.bounded ∘ h.bounded
  quiet := k.quiet ∘ h.quiet

theorem outside_withUp (s : State) (x : Port)
    (hb : s.Bounded → x.input.length ≤ 4 ∧ x.own.length ≤ 24 ∧ x.output.length ≤ 4)
    (hq : s.dom.linkUp = false → s.up.own = [] → s.up.output = [] → s.up.forwarded = none →
      x.own = [] ∧ x.output = [] ∧ x.forwarded = none) : Outside s (s.withUp x) where
  dom := rfl
  eng := rfl
  wake := rfl
  loading := rfl
  pending := rfl
  bounded h := by
    obtain ⟨hi, ho, hout⟩ := hb h
    exact { h with upInput := hi, upOwn := ho, upOutput := hout }
  quiet h hl := by
    obtain ⟨ho, hout, hf⟩ := h hl
    exact hq hl ho hout hf

/-- With the link UP nothing has to be quiet. -/
theorem outside_withUp_of_linkUp (s : State) (x : Port) (hl : s.dom.linkUp = true)
    (hb : s.Bounded → x.input.length ≤ 4 ∧ x.own.length ≤ 24 ∧ x.output.length ≤ 4) : Outside s (s.withUp x) :=
  outside_withUp s x hb fun h => absurd (hl.symm.trans h) Bool.noConfusion

theorem outside_withDown (s : State) (x : Port)
    (hb : s.Bounded → x.input.length ≤ 4 ∧ x.own.length ≤ 24 ∧ x.output.length ≤ 4) : Outside s (s.withDown x) where
  dom := rfl
  eng := rfl
  wake := rfl
  loading := rfl
  pending := rfl
  bounded h := by
    obtain ⟨hi, ho, hout⟩ := hb h
    exact { h with downInput := hi, downOwn := ho, downOutput := hout }
  quiet := id

theorem outside_withGate (s : State) (x : Gate) (hb : s.Bounded → x.hold.length ≤ 16) : Outside s (s.withGate x) :=
  ⟨rfl, rfl, rfl, rfl, rfl, fun h => { h with hold := hb h }, id⟩

theorem outside_withMatcher (s : State) (x : Matcher) : Outside s (s.withMatcher x) :=
  ⟨rfl, rfl, rfl, rfl, rfl, fun h => { h with }, id⟩

theorem outside_withMon (s : State) (x : RailMonitor) : Outside s (s.withMon x) :=
  ⟨rfl, rfl, rfl, rfl, rfl, fun h => { h with }, id⟩

theorem outside_withLines (s : State) (x : LineDriver) : Outside s (s.withLines x) :=
  ⟨rfl, rfl, rfl, rfl, rfl, fun h => { h with }, id⟩

theorem outside_withDraws (s : State) (x : Nat) : Outside s (s.withDraws x) :=
  ⟨rfl, rfl, rfl, rfl, rfl, fun h => { h with }, id⟩

theorem outside_withStatusCode (s : State) (x : LoaderStatus) : Outside s (s.withStatusCode x) :=
  ⟨rfl, rfl, rfl, rfl, rfl, fun h => { h with }, id⟩

theorem outside_withServing (s : State) (x : Option Tag) : Outside s (s.withMgmt { s.mgmt with serving := x }) :=
  ⟨rfl, rfl, rfl, rfl, rfl, fun h => { h with }, id⟩

theorem outside_withQual (s : State) (x : Qualifiers)
    (hb : s.Bounded → x.wakeTimer ≤ 16777215 ∧ x.sleepCount ≤ 16777215 ∧ x.divider ≤ 32767) : Outside s (s.withQual x) :=
  ⟨rfl, rfl, rfl, rfl, rfl, fun h => by
    obtain ⟨hw, hs, hd⟩ := hb h
    exact { h with wakeTimer := hw, sleepCount := hs, divider := hd }, id⟩

/-- The lines, the button, the filtered ACOK level and the after-loss policy have no range. -/
theorem outside_qualSettings (s : State) (x : Qualifiers) (hw : x.wakeTimer = s.qual.wakeTimer)
    (hs : x.sleepCount = s.qual.sleepCount) (hd : x.divider = s.qual.divider) : Outside s (s.withQual x) :=
  outside_withQual s x fun h => ⟨hw ▸ h.wakeTimer, hs ▸ h.sleepCount, hd ▸ h.divider⟩

theorem saturate_le (c n : Nat) : saturate c n ≤ 255 := Nat.min_le_left _ _

theorem outside_countDiscarded (n : Nat) (s : State) : Outside s (countDiscarded n s) :=
  ⟨rfl, rfl, rfl, rfl, rfl, fun h => { h with discarded := saturate_le _ _ }, id⟩

theorem outside_countOverflow (s : State) : Outside s (countOverflow s) :=
  ⟨rfl, rfl, rfl, rfl, rfl, fun h => { h with holdOverflow := saturate_le _ _ }, id⟩

theorem outside_countFrameError (p : PortId) (s : State) : Outside s (countFrameError p s) := by
  cases p
  · exact ⟨rfl, rfl, rfl, rfl, rfl, fun h => { h with frameErrorsUp := saturate_le _ _ }, id⟩
  · exact ⟨rfl, rfl, rfl, rfl, rfl, fun h => { h with frameErrorsDn := saturate_le _ _ }, id⟩

theorem outside_queueUp (f : Frame) (s : State) : Outside s (queueUp f s) := by
  unfold queueUp
  split
  · next hl =>
    split
    · next hr =>
      refine outside_withUp_of_linkUp s _ hl fun h => ⟨h.upInput, ?_, h.upOutput⟩
      have : s.upstreamPlaces ≤ 24 := by unfold State.upstreamPlaces; split <;> omega
      simp only [List.length_append, List.length_singleton]
      omega
    · exact outside_countDiscarded 1 s
  · exact .refl s

theorem outside_queueResult (f : Frame) (s : State) : Outside s (queueResult f s) := by
  unfold queueResult
  split
  · next hl =>
    split
    · next hr =>
      refine outside_withUp_of_linkUp s _ hl fun h => ⟨h.upInput, ?_, h.upOutput⟩
      simp only [List.length_append, List.length_singleton]
      omega
    · exact outside_countDiscarded 1 s
  · exact .refl s

theorem outside_queueDown (f : Frame) (s : State) : Outside s (queueDown f s) := by
  unfold queueDown
  split
  · refine outside_withDown s _ fun h => ⟨h.downInput, ?_, h.downOutput⟩
    simp only [List.length_append, List.length_singleton]
    omega
  · exact outside_countDiscarded 1 s

/-! ### Input FIFOs -/

theorem outside_popUp (s : State) : Outside s (popUp s) :=
  outside_withUp s _ (fun h => ⟨Nat.le_trans (by simp) h.upInput, h.upOwn, h.upOutput⟩) fun _ ho hout hf => ⟨ho, hout, hf⟩

theorem outside_popDown (s : State) : Outside s (popDown s) :=
  outside_withDown s _ fun h => ⟨Nat.le_trans (by simp) h.downInput, h.downOwn, h.downOutput⟩

theorem outside_popPastTraffic (s : State) : Outside s (popPastTraffic s) :=
  outside_withDown s _ fun h => ⟨Nat.le_trans (List.length_eraseP_le ..) h.downInput, h.downOwn, h.downOutput⟩

theorem outside_answer (f : Frame) (code : ResultCode) (data : List Byte) (s : State) : Outside s (answer f code data s) :=
  outside_queueResult _ s

/-- A port's note of a frame being received. -/
theorem outside_receiving (p : PortId) (s : State) (x : Option Bool) :
    Outside s (s.withPort p { s.port p with receiving := x }) := by
  cases p
  · exact outside_withUp s _ (fun h => ⟨h.upInput, h.upOwn, h.upOutput⟩) fun _ ho hout hf => ⟨ho, hout, hf⟩
  · exact outside_withDown s _ fun h => ⟨h.downInput, h.downOwn, h.downOutput⟩

theorem outside_acceptFrame (p : PortId) (f : Frame) (s : State) (hr : (s.port p).ready = true) :
    Outside s (acceptFrame p f s) := by
  have hlen : ((s.port p).input ++ [f]).length ≤ 4 := by
    simp only [Port.ready, decide_eq_true_eq] at hr
    simp only [List.length_append, List.length_singleton]
    omega
  unfold acceptFrame
  split
  · exact outside_countDiscarded 1 s
  · cases p
    · exact outside_withUp s _ (fun h => ⟨hlen, h.upOwn, h.upOutput⟩) fun _ ho hout hf => ⟨ho, hout, hf⟩
    · exact outside_withDown s _ fun h => ⟨hlen, h.downOwn, h.downOutput⟩

theorem outside_receiveFrame (p : PortId) (r : Bool) (bytes : List Byte) (s : State) :
    Outside s (receiveFrame p r bytes s) := by
  have h1 := outside_receiving p s none
  simp only [receiveFrame]
  split
  · exact .refl s
  · exact h1.trans (outside_countFrameError p _)
  · split
    · next hr =>
      refine h1.trans (outside_acceptFrame p _ _ ?_)
      simp only [beganReady, Bool.and_eq_true] at hr
      cases p <;> exact hr.2
    · exact h1.trans (outside_countFrameError p _)

/-! ### The output arbiter -/

theorem outside_withHold (s : State) (l : List HoldRecord) (hl : l.length ≤ s.gate.hold.length) :
    Outside s (s.withHold l) := outside_withGate s _ fun h => Nat.le_trans hl h.hold

theorem outside_takeRecord (p : PortId) (s : State) : Outside s (takeRecord p s) :=
  outside_withGate s _ fun h => Nat.le_trans (List.length_eraseP_le ..) h.hold

theorem outside_pushOutput (p : PortId) (f : Frame) (s : State) (hl : p = .upstream → s.dom.linkUp = true)
    (hr : (s.port p).output.length < 4) : Outside s (pushOutput p f s) := by
  have hlen : ((s.port p).output ++ [f]).length ≤ 4 := by
    simp only [List.length_append, List.length_singleton]; omega
  cases p
  · exact outside_withUp_of_linkUp s _ (hl rfl) fun h => ⟨h.upInput, h.upOwn, hlen⟩
  · exact outside_withDown s _ fun h => ⟨h.downInput, h.downOwn, hlen⟩

/-- A port gives up its first own frame. -/
theorem outside_dropOwn (p : PortId) (s : State) (f : Frame) (rest : List Frame) (ho : (s.port p).own = f :: rest) :
    Outside s (s.withPort p { s.port p with own := rest }) := by
  cases p
  · refine outside_withUp s _ (fun h => ⟨h.upInput, ?_, h.upOutput⟩) fun _ hn _ _ => ?_
    · have := h.upOwn
      rw [show s.up.own = f :: rest from ho, List.length_cons] at this
      exact Nat.le_of_succ_le this
    · rw [show s.up.own = f :: rest from ho] at hn
      exact absurd hn (by simp)
  · refine outside_withDown s _ fun h => ⟨h.downInput, ?_, h.downOutput⟩
    have := h.downOwn
    rw [show s.down.own = f :: rest from ho, List.length_cons] at this
    exact Nat.le_of_succ_le this

/-- A port gives up the message that waited at its arbiter. -/
theorem outside_dropForwarded (p : PortId) (s : State) : Outside s (s.withPort p { s.port p with forwarded := none }) := by
  cases p
  · exact outside_withUp s _ (fun h => ⟨h.upInput, h.upOwn, h.upOutput⟩) fun _ ho hout _ => ⟨ho, hout, rfl⟩
  · exact outside_withDown s _ fun h => ⟨h.downInput, h.downOwn, h.downOutput⟩

theorem outside_fillOutput (p : PortId) (s : State) (hr : (s.port p).output.length < 4)
    (hl : p = .upstream → s.dom.linkUp = true) : Outside s (fillOutput p s) := by
  unfold fillOutput
  split
  · next f rest ho =>
    exact (outside_dropOwn p s f rest ho).trans (outside_pushOutput p f _ (by cases p <;> exact hl) (by cases p <;> exact hr))
  · split
    · split
      · exact (outside_takeRecord p s).trans (outside_pushOutput p _ _ hl (by cases p <;> exact hr))
      · exact (outside_withHold s _ (List.length_eraseP_le ..)).trans
          (outside_pushOutput p _ _ hl (by cases p <;> exact hr))
    · split
      · exact (outside_dropForwarded p s).trans
          (outside_pushOutput p _ _ (by cases p <;> exact hl) (by cases p <;> exact hr))
      · exact .refl s

/-! ### The Traffic Gate -/

theorem outside_appendHold (s : State) (r : HoldRecord) (h16 : s.gate.hold.length < 16) :
    Outside s (s.withHold (s.gate.hold ++ [r])) :=
  outside_withGate s _ fun _ => by simp only [List.length_append, List.length_singleton]; omega

theorem outside_holdDown (f : Frame) (s : State) : Outside s (holdDown f s) := by
  unfold holdDown
  split
  · next h => exact outside_appendHold s _ h
  · split
    · exact (outside_countOverflow s).trans (outside_queueUp _ _)
    · exact outside_countOverflow s

theorem outside_refuseDown (f : Frame) (s : State) : Outside s (refuseDown f s) := by
  unfold refuseDown
  split
  · exact outside_queueUp _ s
  · exact outside_countDiscarded 1 s

theorem outside_gateDown (f : Frame) (s : State) : Outside s (gateDown f s) := by
  unfold gateDown
  split
  · exact outside_withDown s _ fun h => ⟨h.downInput, h.downOwn, h.downOutput⟩
  · exact outside_holdDown f s
  · exact outside_refuseDown f s

theorem outside_discardUp (f : Frame) (s : State) : Outside s (discardUp f s) := by
  unfold discardUp
  split
  · exact (outside_countDiscarded 1 s).trans (outside_queueDown _ _)
  · exact outside_countDiscarded 1 s

theorem outside_keepUp (f : Frame) (s : State) : Outside s (keepUp f s) := by
  unfold keepUp
  split
  · next h => exact outside_appendHold s _ h
  · split
    · exact (outside_countOverflow s).trans (outside_queueDown _ _)
    · exact outside_countOverflow s

theorem outside_forwardUp (f : Frame) (s : State) (hl : s.dom.linkUp = true) : Outside s (forwardUp f s) :=
  outside_withUp_of_linkUp s _ hl fun h => ⟨h.upInput, h.upOwn, h.upOutput⟩

theorem outside_gateUp (f : Frame) (x : Disposition) (s : State) : Outside s (gateUp f x s) := by
  unfold gateUp
  split
  · split
    · next hl => exact outside_forwardUp f s hl
    · exact outside_discardUp f s
  · exact outside_keepUp f s
  · exact outside_discardUp f s

/-! ### Requests, counters and the end of a REINIT's service -/

theorem outside_serveGet (selector : Byte) (data : State → List Byte → Except ResultCode (List Byte)) (s : State) :
    Outside s (serveGet selector data s) := by
  unfold serveGet
  split
  · exact .refl s
  · split <;> exact (outside_popUp s).trans (outside_answer _ _ _ _)

theorem outside_drawn (n : Nat) (used : Bool) (s : State) : Outside s (drawn n used s) := by
  unfold drawn
  split
  · exact outside_withDraws s _
  · exact .refl s

theorem outside_clearCounters (named : BitVec 16) (s : State) : Outside s (clearCounters named s) where
  dom := rfl
  eng := rfl
  wake := rfl
  loading := rfl
  pending := rfl
  bounded h := by
    have keep : ∀ (i n : Nat), n ≤ 255 → (if named.getLsbD i then 0 else n) ≤ 255 := by
      intro i n hn; split <;> omega
    exact { h with
      frameErrorsUp := keep 0 _ h.frameErrorsUp, frameErrorsDn := keep 1 _ h.frameErrorsDn,
      discarded := keep 2 _ h.discarded, stray := keep 3 _ h.stray, late := keep 4 _ h.late,
      holdOverflow := keep 5 _ h.holdOverflow }
  quiet := id

theorem outside_endService (code : ResultCode) (s : State) : Outside s (endService code s) := by
  simp only [endService]
  split
  · exact (outside_queueResult _ s).trans (outside_withServing _ _)
  · exact outside_withServing s _

end Sys2Proof.Machine
end

section
/-! SUPPORT. Every command and every step keep a property that survives those writes and the operations through
which a command reaches the Engine, the Wake Unit, the Domain Table and the loading. -/

namespace Sys2Proof.Machine

/-- The fields of a SET that the laws bound: what each check makes sure of (R23, R97, R106, R121, R172). -/
def SetWrite.Valid : SetWrite → Prop
  | .directory _ entries => ∀ e ∈ entries, e.count ≤ 32
  | .wakeSettings enable standby hibernate softoff threshold _ =>
    enable.getLsbD 0 = true ∧ standby.getLsbD 0 = false ∧ hibernate.getLsbD 0 = false ∧ softoff.getLsbD 0 = false ∧
      1 ≤ threshold ∧ threshold ≤ 255
  | .wakeTimer count => count ≤ 16777215
  | .retained pointer _ => pointer < 64
  | .steps _ _ | .domains _ _ _ | .agents _ _ | .matches _ _ | .lineQualifiers _ _ | .buttonSettings _ _ _
  | .safeLevels _ => True

/-- The platform is in no transition, or a loading goes on: where tables are written (R2, R11). -/
def State.TablesOpen (s : State) : Prop := s.eng.platform.transitional = false ∨ s.isLoading = true

/-- A loading is in progress that the same event started as this one, and mains power has been lost in both or in neither. -/
def State.LoadsAs (s : State) (l : Loading) : Prop :=
  s.ldr.loading.map (fun x => (x.byReinit, x.mainsLost)) = some (l.byReinit, l.mainsLost)

/-- The operations through which a command reaches the blocks that the laws read, and that P survives each of them. -/
structure CommandStable (P : State → Prop) : Prop where
  outside     : ∀ s t, Outside s t → P s → P t
  reset       : ∀ s, P s → P ((State.reset.withPending s.pending).withDraws s.draws)
  edge        : ∀ p s, P s → P (slowEdge p s)
  -- the Rail Monitor and the end of an event
  status      : ∀ d (x : DomainStatus) s, x.recorded = s.dom.status[d].recorded → P s → P (s.withStatus d x)
  endEvent    : ∀ p, P p.1 → P (endEvent p)
  -- the Wake Unit
  latch       : ∀ x s, P s → P (s.withWake { s.wake with latch := x })
  window      : ∀ n s, P s → P (s.withWake { s.wake with windowTimer := n })
  counts      : ∀ s, P s → P (s.withWake { s.wake with stormCount := s.wake.clearedCounts })
  suppression : ∀ named s, P s → P (clearSuppression named s)
  latchFrom   : ∀ src p, P p.1 → P (latchFrom src p).1
  -- the Engine
  go          : ∀ f t c steps s, checkGo s f.payload = .ok (t, c, steps) → s.isLoading = false → P s →
    P (acceptGo f t c steps s).1
  orderDone   : ∀ f s, s.isLoading = false → P s → P (takeOrderDone f s).1
  completed   : ∀ m s, m ∈ s.eng.running → P s → P (memberCompleted m s).1
  failed      : ∀ m d st c s, m ∈ s.eng.running → P s → P (memberFailed m d st c s).1
  undoFailed  : ∀ u d c s, s.eng.undo = some u → P s → P (undoFailed u d c s).1
  undoDone    : ∀ u s, s.eng.undo = some u → P s → P (undoEnded u (undoLineDone u.record.action s)).1
  awaiting    : ∀ l b s, P s → P (completeAwaiting l b s).1
  forcing     : ∀ c left s, P s → P (forcingEvent c left s).1
  restore     : ∀ left s, s.eng.platform = .rest .softoff → s.isLoading = false → P s →
    P (acceptWake .softoff .powerRestore left s).1
  mainsLoss   : ∀ s, P s → P (mainsLoss s)
  -- tables
  store       : ∀ s x, s.TablesOpen → P s → P (s.withEng { s.eng with store := x })
  directory   : ∀ s first entries, s.TablesOpen → (SetWrite.directory first entries).Valid → P s →
    P (s.withEng { s.eng with directory := writeFrom s.eng.directory first entries })
  domains     : ∀ first configs holder s, s.TablesOpen → P s → P (writeDomains first configs holder s)
  agents      : ∀ s x, P s → P (s.withDom { s.dom with agentMap := x })
  settings    : ∀ e a b c threshold w s, s.TablesOpen → (SetWrite.wakeSettings e a b c threshold w).Valid → P s →
    P (writeWakeSettings e a b c threshold w s)
  -- the loading
  reinit      : ∀ tag s, s.eng.platform = .working → s.isLoading = false → s.dom.linkUp = true → P s →
    P (startReinit tag s)
  phase       : ∀ l x s, s.ldr.loading = some l → P s → P (s.withLoading (some { l with phase := x }))
  acceptImage : ∀ l s, s.ldr.loading = some l → l.byReinit = true → P s → P (acceptReinit s)
  fallback    : ∀ l s, s.ldr.loading = some l → P s → P (fallbackTables s)
  endPower    : ∀ l s, s.LoadsAs l → (l.byReinit && !l.mainsLost) = false → P s →
    P (recomputeLink ((startWindow (computeArmed .softoff s)).withLoading none))
  endReinit   : ∀ l s, s.LoadsAs l → (l.byReinit && !l.mainsLost) = true → P s → P (recomputeLink (s.withLoading none))

/-! ## What the checks of a SET make sure of -/

theorem decodeAll_forall {α : Type} {f : List Byte → Option α} {Q : α → Prop} (hf : ∀ x a, f x = some a → Q a)
    {items : List (List Byte)} {values : List α} (h : decodeAll f items = some values) : ∀ a ∈ values, Q a := by
  induction items generalizing values with
  | nil => simp only [decodeAll, Option.some.injEq] at h; simp [← h]
  | cons x xs ih =>
    simp only [decodeAll] at h
    split at h
    · next a as ha has =>
      obtain rfl := Option.some.inj h
      intro b hb
      obtain rfl | hb := List.mem_cons.1 hb
      · exact hf _ _ ha
      · exact ih has b hb
    · exact absurd h (by simp)

/-- An accepted SET of items writes decoded items from some index. -/
theorem checkItems_ok {α : Type} {size limit lowest highest : Nat} {decode : List Byte → Option α}
    {write : Nat → List α → SetWrite} {payload : List Byte} {w : SetWrite}
    (h : checkItems size limit lowest highest decode write payload = .ok w) :
    ∃ first items values, decodeAll decode items = some values ∧ w = write first values := by
  unfold checkItems at h
  split at h
  · exact absurd h (by simp)
  · next first items _ =>
    split at h
    · next values hv => exact ⟨first, items, values, hv, (Except.ok.inj h).symm⟩
    · exact absurd h (by simp)

theorem dirOfBytes_count {x : List Byte} {e : DirEntry} (h : dirOfBytes x = some e) : e.count ≤ 32 := by
  unfold dirOfBytes at h
  split at h
  · split at h
    · next hc => obtain rfl := Option.some.inj h; exact hc.2.1
    · exact absurd h (by simp)
  · exact absurd h (by simp)

theorem checkSteps_valid {s : State} {p : List Byte} {w : SetWrite} (h : checkSteps s p = .ok w) : w.Valid := by
  obtain ⟨_, _, _, _, rfl⟩ := checkItems_ok h; trivial

theorem checkDirectory_valid {s : State} {p : List Byte} {w : SetWrite} (h : checkDirectory s p = .ok w) : w.Valid := by
  obtain ⟨_, _, _, hv, rfl⟩ := checkItems_ok h
  exact decodeAll_forall (fun _ _ => dirOfBytes_count) hv

theorem checkDomains_valid {s : State} {p : List Byte} {w : SetWrite} (h : checkDomains s p = .ok w) : w.Valid := by
  simp only [checkDomains] at h
  repeat' split at h
  all_goals cases h
  trivial

theorem checkAgents_valid {s : State} {p : List Byte} {w : SetWrite} (h : checkAgents s p = .ok w) : w.Valid := by
  obtain ⟨_, _, _, _, rfl⟩ := checkItems_ok h; trivial

theorem checkMatches_valid {s : State} {p : List Byte} {w : SetWrite} (h : checkMatches s p = .ok w) : w.Valid := by
  obtain ⟨_, _, _, _, rfl⟩ := checkItems_ok h; trivial

theorem checkLines_valid {s : State} {p : List Byte} {w : SetWrite} (h : checkLines s p = .ok w) : w.Valid := by
  obtain ⟨_, _, _, _, rfl⟩ := checkItems_ok h; trivial

theorem setBit_zero_mem (x : SourceSet) : (setBit x 0).getLsbD 0 = true := by
  have := setBit_getLsbD x 0 0; simpa using this

theorem clearBit_zero_not_mem (x : SourceSet) : (clearBit x 0).getLsbD 0 = false := by
  have := clearBit_getLsbD x 0 0; simpa using this

theorem checkWakeSettings_valid {s : State} {p : List Byte} {w : SetWrite} (h : checkWakeSettings s p = .ok w) :
    w.Valid := by
  unfold checkWakeSettings at h
  split at h
  · next t _ =>
    obtain rfl := Except.ok.inj h
    exact ⟨setBit_zero_mem _, clearBit_zero_not_mem _, clearBit_zero_not_mem _, clearBit_zero_not_mem _,
      Nat.le_max_left .., Nat.max_le.2 ⟨by decide, by have := t.isLt; omega⟩⟩
  · exact absurd h (by simp)

theorem checkButton_valid {s : State} {p : List Byte} {w : SetWrite} (h : checkButton s p = .ok w) : w.Valid := by
  unfold checkButton at h
  repeat' split at h
  all_goals cases h
  all_goals trivial

theorem checkWakeTimer_valid {s : State} {p : List Byte} {w : SetWrite} (h : checkWakeTimer s p = .ok w) : w.Valid := by
  unfold checkWakeTimer at h
  split at h
  · obtain rfl := Except.ok.inj h; exact Nat.min_le_left ..
  · exact absurd h (by simp)

theorem checkSafeLevels_valid {s : State} {p : List Byte} {w : SetWrite} (h : checkSafeLevels s p = .ok w) :
    w.Valid := by
  unfold checkSafeLevels at h
  split at h
  · obtain rfl := Except.ok.inj h; trivial
  · exact absurd h (by simp)

theorem checkRetained_valid {s : State} {p : List Byte} {w : SetWrite} (h : checkRetained s p = .ok w) : w.Valid := by
  unfold checkRetained at h
  split at h
  · exact absurd h (by simp)
  · obtain rfl := Except.ok.inj h; exact Nat.mod_lt _ (by decide)

/-- A record of the image passes the check of its SET. -/
theorem recordCheck_valid {s : State} {p : List Byte} {w : SetWrite} (h : recordCheck s p = .ok w) : w.Valid := by
  unfold recordCheck at h
  split at h
  · exact checkSteps_valid h
  · exact checkDirectory_valid h
  · exact checkDomains_valid h
  · exact checkAgents_valid h
  · exact checkMatches_valid h
  · exact checkWakeSettings_valid h
  · exact checkLines_valid h
  · exact checkButton_valid h
  · exact checkSafeLevels_valid h
  · exact absurd h (by simp)

/-! ## The request that a block may take -/

theorem State.request_some {s : State} {f : Frame} (h : s.request = some f) :
    s.dom.linkUp = true ∧ s.isLoading = false := by
  unfold State.request at h
  split at h
  · next hc => simp only [Bool.and_eq_true, Bool.not_eq_true'] at hc; exact ⟨hc.1.1.1, hc.1.1.2⟩
  · exact absurd h (by simp)

theorem State.requestFor_some {s : State} {k : Kind} {selector : Byte} {f : Frame} (h : s.requestFor k selector = some f) :
    s.dom.linkUp = true ∧ s.isLoading = false :=
  State.request_some (Option.eq_some_of_filter_eq_some h)

theorem State.pastTraffic_some {s : State} {f : Frame} (h : s.pastTraffic = some f) : s.isLoading = false := by
  unfold State.pastTraffic at h
  split at h
  · exact absurd h (by simp)
  · next hc => simpa using hc

/-- The checks of a GO read neither input FIFO. -/
theorem checkGo_popUp (s : State) (payload : List Byte) : checkGo (popUp s) payload = checkGo s payload := by
  have hc : ∀ k, checkSequence (popUp s) k = checkSequence s k := fun k => by
    have hf : ∀ l g, structureFault (popUp s) g l = structureFault s g l := by
      intro l
      induction l with
      | nil => intro g; rfl
      | cons q rest ih => intro g; simp only [structureFault, ih]; rfl
    simp only [checkSequence, hf]
    rfl
  simp only [checkGo, hc]
  rfl

theorem State.timedMember_mem {s : State} {p : Nat} {m : Member} (h : s.timedMember p = some m) :
    m ∈ s.eng.running := List.mem_of_find?_eq_some (Option.eq_some_of_filter_eq_some h)

theorem State.timedUndo_some {s : State} {u : UndoRun} (h : s.timedUndo = some u) : s.eng.undo = some u :=
  Option.eq_some_of_filter_eq_some h

/-- A Line Qualifier is replaced, and its source latched where the new one is active. -/
theorem writeLine_eq (k : WakeLine) (mode : LineMode) (code : TimeCode) (p : State × Departed) :
    ∃ q : LineQualifier, writeLine k mode code p =
      if q.active then
        latchFrom (lineSource k) (p.1.withQual { p.1.qual with lines := p.1.qual.lines.set k q }, p.2)
      else (p.1.withQual { p.1.qual with lines := p.1.qual.lines.set k q }, p.2) := ⟨_, rfl⟩

/-! ## Every command -/

section
variable {P : State → Prop} (h : CommandStable P)
include h

theorem CommandStable.latchEvent (src : Source) (s : State) (hs : P s) : P (latchEvent src s).1 := h.latchFrom src _ hs

theorem CommandStable.relatch (c : SourceSet) (p : State × Departed) (hs : P p.1) : P (relatch c p).1 :=
  pair_foldl _ (fun p k hs => by split <;> [exact h.latchFrom _ _ hs; exact hs]) _ _ hs

theorem CommandStable.monitor (s : State) (hs : P s) : P (monitor s) := h.endEvent _ hs

theorem CommandStable.clearRail (d : Domain) (s : State) (hs : P s) : P (clearRail d s) := by
  simp only [Machine.clearRail]
  split <;> first | exact hs | exact h.status _ _ _ rfl hs

theorem CommandStable.clearRails (named : BitVec 16) (s : State) (hs : P s) : P (clearRails named s) := by
  have fold : ∀ (l : List Domain) (s : State), P s → P (l.foldl (fun s d => Machine.clearRail d s) s) := by
    intro l
    induction l with
    | nil => intro s hs; exact hs
    | cons d l ih => intro s hs; exact ih _ (h.clearRail d s hs)
  exact h.monitor _ (fold _ s hs)

theorem CommandStable.serveClear (selector : Byte) (effect : BitVec 16 → State → State)
    (he : ∀ x s, P s → P (effect x s)) (s : State) (hs : P s) : P (serveClear selector effect s) := by
  have answered : ∀ f code, P (answer f code [] (popUp s)) := fun f code =>
    h.outside _ _ ((outside_popUp s).trans (outside_answer _ _ _ _)) hs
  unfold Machine.serveClear
  split
  · exact hs
  · split
    · exact he _ _ (answered _ _)
    · exact answered _ _

/-! ### SETs and records of the image -/

theorem CommandStable.writeLine (k : WakeLine) (mode : LineMode) (code : TimeCode) (p : State × Departed) (hs : P p.1) :
    P (writeLine k mode code p).1 := by
  obtain ⟨q, hq⟩ := writeLine_eq k mode code p
  rw [hq]
  split
  · exact h.latchFrom _ _ (h.outside _ _ (outside_qualSettings _ _ rfl rfl rfl) hs)
  · exact h.outside _ _ (outside_qualSettings _ _ rfl rfl rfl) hs

theorem CommandStable.writeLines (settings : List (LineMode × TimeCode)) (first : Nat) (p : State × Departed)
    (hs : P p.1) : P (writeLines first settings p).1 := by
  induction settings generalizing first p with
  | nil => exact hs
  | cons x rest ih =>
    obtain ⟨mode, code⟩ := x
    refine ih _ _ ?_
    split
    · exact h.writeLine _ _ _ _ hs
    · exact hs

theorem CommandStable.applyWrite (w : SetWrite) (s : State) (hv : w.Valid) (ho : s.TablesOpen) (hs : P s) :
    P (applyWrite w s).1 := by
  match w, hv with
  | .steps first records, _ => exact h.store s _ ho hs
  | .directory first entries, hv => exact h.directory s _ _ ho hv hs
  | .domains first configs holder, _ => exact h.domains _ _ _ s ho hs
  | .agents first entries, _ => exact h.agents s _ hs
  | .matches first entries, _ => exact h.outside _ _ (outside_withMatcher s _) hs
  | .wakeSettings e a b c threshold window, hv => exact h.settings _ _ _ _ _ _ s ho hv hs
  | .lineQualifiers first settings, _ => exact h.writeLines settings first _ hs
  | .buttonSettings p o a, _ => exact h.outside _ _ (outside_qualSettings s _ rfl rfl rfl) hs
  | .wakeTimer count, hv => exact h.outside _ _ (outside_withQual s _ fun hb => ⟨hv, hb.sleepCount, hb.divider⟩) hs
  | .safeLevels levels, _ => exact h.outside _ _ (outside_withLines s _) hs
  | .retained pointer bytes, hv =>
    exact h.outside s _ ⟨rfl, rfl, rfl, rfl, rfl,
      fun hb => { hb with retained := Memory.wf_writeBytes bytes hv hb.retained }, id⟩ hs

theorem CommandStable.writeAndTest (w : SetWrite) (s : State) (hv : w.Valid) (ho : s.TablesOpen) (hs : P s) :
    P (writeAndTest w s) := by
  unfold Machine.writeAndTest
  split
  · exact h.endEvent _ (h.applyWrite w s hv ho hs)
  · exact h.applyWrite w s hv ho hs

theorem CommandStable.serveSet (selector : Byte) (check : State → List Byte → Except ResultCode SetWrite)
    (hc : ∀ s p w, check s p = .ok w → w.Valid) (s : State) (hs : P s) :
    P (serveSet selector check Machine.writeAndTest s) := by
  have ha : ∀ f code, Outside s (answer f code [] (popUp s)) := fun f code =>
    (outside_popUp s).trans (outside_answer _ _ _ _)
  unfold Machine.serveSet
  split
  · exact hs
  · split
    · exact h.outside _ _ (ha _ _) hs
    · next ht =>
      split
      · next w hw =>
        refine h.writeAndTest w _ (hc _ _ _ hw) (.inl ?_) (h.outside _ _ (ha _ _) hs)
        rw [(ha _ _).eng]
        simpa using ht
      · exact h.outside _ _ (ha _ _) hs

/-! ### Requests and messages -/

theorem CommandStable.go_command (s : State) (hs : P s) : ∃ t, execGo s = .next t ∧ P t := by
  refine ⟨_, rfl, ?_⟩
  have hp := outside_popUp s
  split
  · exact hs
  · next f hf =>
    split
    · exact h.outside _ _ (hp.trans (outside_answer _ _ _ _)) hs
    · next t c steps hok =>
      have hl : s.isLoading = false := (State.request_some (Option.eq_some_of_filter_eq_some hf)).2
      exact h.endEvent _ (h.go f t c steps _ ((checkGo_popUp s _).trans hok) hl (h.outside _ _ hp hs))

theorem CommandStable.reinit_command (s : State) (hs : P s) : ∃ t, execReinit s = .next t ∧ P t := by
  refine ⟨_, rfl, ?_⟩
  have hp := outside_popUp s
  split
  · exact hs
  · next f hf =>
    obtain ⟨hlink, hload⟩ := State.requestFor_some hf
    split
    · exact h.outside _ _ (hp.trans (outside_answer _ _ _ _)) hs
    · next hw =>
      split
      · exact h.outside _ _ (hp.trans (outside_answer _ _ _ _)) hs
      · exact h.reinit _ (popUp s) (Decidable.of_not_not hw) hload hlink (h.outside _ _ hp hs)

theorem CommandStable.badSelector_command (s : State) (hs : P s) :
    ∃ t, execManagementRequestBadSelector s = .next t ∧ P t := by
  refine ⟨_, rfl, ?_⟩
  split
  · exact hs
  · split
    · exact hs
    · exact h.outside _ _ ((outside_popUp s).trans (outside_answer _ _ _ _)) hs

theorem CommandStable.discard_commands (s : State) (hs : P s) :
    (∃ t, execUpstreamRoutingDiscard s = .next t ∧ P t) ∧ (∃ t, execDownstreamRoutingDiscard s = .next t ∧ P t) ∧
    (∃ t, execLinkDownInputDiscard s = .next t ∧ P t) := by
  have hup := h.outside _ _ ((outside_popUp s).trans (outside_countDiscarded 1 _)) hs
  have hdown := h.outside _ _ ((outside_popPastTraffic s).trans (outside_countDiscarded 1 _)) hs
  refine ⟨⟨_, rfl, ?_⟩, ⟨_, rfl, ?_⟩, ⟨_, rfl, ?_⟩⟩
  · split
    · split <;> [exact hup; exact hs]
    · exact hs
  · split
    · split <;> [exact hdown; exact hs]
    · exact hs
  · split
    · split <;> [exact hup; exact hs]
    · exact hs

theorem CommandStable.traffic_commands (s : State) (hs : P s) :
    (∃ t, execDownstreamTraffic s = .next t ∧ P t) ∧ (∃ t, execUpstreamAnswer s = .next t ∧ P t) := by
  refine ⟨⟨_, rfl, ?_⟩, ⟨_, rfl, ?_⟩⟩
  · split
    · exact h.outside _ _ ((outside_popUp s).trans (outside_gateDown _ _)) hs
    · exact hs
  · split
    · split
      · next hl => exact h.outside _ _ ((outside_popDown s).trans (outside_forwardUp _ _ hl)) hs
      · exact h.outside _ _ ((outside_popDown s).trans (outside_countDiscarded 1 _)) hs
    · exact hs

theorem CommandStable.fireLatch (fired : Option MatchEntry) (s : State) (hs : P s) : P (fireLatch fired s).1 := by
  unfold Machine.fireLatch
  split
  · split
    · exact h.latchEvent _ _ hs
    all_goals exact hs
  · exact hs

theorem CommandStable.takeMessage (f : Frame) (s : State) (hs : P s) : P (takeMessage f s).1 :=
  h.outside _ _ (outside_gateUp _ _ _) (h.fireLatch _ _ (h.outside _ _ (outside_withMatcher s _) hs))

theorem CommandStable.message_command (s : State) (hs : P s) : ∃ t, execMatcherTakeMessage s = .next t ∧ P t := by
  refine ⟨_, rfl, ?_⟩
  split
  · exact h.endEvent _ (h.takeMessage _ _ (h.outside _ _ (outside_popDown s) hs))
  · exact hs

theorem CommandStable.orderDone_command (s : State) (hs : P s) : ∃ t, execOrderDone s = .next t ∧ P t := by
  refine ⟨_, rfl, ?_⟩
  split
  · next f hf =>
    have hload : s.isLoading = false := State.pastTraffic_some hf
    split
    · exact h.endEvent _ (h.orderDone f _ hload (h.outside _ _ (outside_popPastTraffic s) hs))
    · exact hs
  · exact hs

/-! ### Timers, rails and pins -/

theorem CommandStable.stepTimer_commands (p : Nat) (s : State) (hs : P s) :
    (∃ t, execOrderTimeout p s = .next t ∧ P t) ∧ (∃ t, execAwaitGoodTimeout p s = .next t ∧ P t) ∧
    (∃ t, execLineSettleExpiry p s = .next t ∧ P t) ∧ (∃ t, execDelayExpiry p s = .next t ∧ P t) := by
  have failed := fun m d (hm : s.timedMember p = some m) =>
    h.endEvent _ (h.failed m d .unknown .stepTimeout s (State.timedMember_mem hm) hs)
  have completed := fun m (hm : s.timedMember p = some m) =>
    h.endEvent _ (h.completed m s (State.timedMember_mem hm) hs)
  refine ⟨⟨_, rfl, ?_⟩, ⟨_, rfl, ?_⟩, ⟨_, rfl, ?_⟩, ⟨_, rfl, ?_⟩⟩
  · split
    · next m hm =>
      split
      · exact failed m _ hm
      all_goals exact hs
    · exact hs
  · split
    · next m hm =>
      split
      · exact failed m _ hm
      all_goals exact hs
    · exact hs
  · split
    · next m hm =>
      split
      · exact completed m hm
      all_goals exact hs
    · exact hs
  · split
    · next m hm =>
      split
      · exact completed m hm
      all_goals exact hs
    · exact hs

theorem CommandStable.undoTimer_commands (s : State) (hs : P s) :
    (∃ t, execUndoOrderTimeout s = .next t ∧ P t) ∧ (∃ t, execUndoLineSettleExpiry s = .next t ∧ P t) := by
  refine ⟨⟨_, rfl, ?_⟩, ⟨_, rfl, ?_⟩⟩
  · split
    · next u hu =>
      split
      · exact h.endEvent _ (h.undoFailed u _ _ s (State.timedUndo_some hu) hs)
      · exact hs
    · exact hs
  · split
    · next u hu =>
      split
      · exact h.endEvent _ (h.undoDone u s (State.timedUndo_some hu) hs)
      · exact hs
    · exact hs

theorem CommandStable.rail_commands (l : PgLine) (b : Bool) (d : Domain) (s : State) (hs : P s) :
    (∃ t, execPowerGoodChange l b s = .next t ∧ P t) ∧ (∃ t, execBlankingExpiry d s = .next t ∧ P t) := by
  refine ⟨⟨_, rfl, ?_⟩, ⟨_, rfl, ?_⟩⟩
  · split
    · exact hs
    · exact h.endEvent _ (h.awaiting _ _ _ (h.outside _ _ (outside_withMon s _) hs))
  · split
    · exact h.monitor _ (h.status _ _ _ rfl hs)
    · exact hs

theorem CommandStable.line_command (k : WakeLine) (high : Bool) (s : State) (hs : P s) :
    ∃ t, execLineFilteredChange k high s = .next t ∧ P t := by
  refine ⟨_, rfl, ?_⟩
  have hw : P (writeLineLevel k high s) := h.outside _ _ (outside_qualSettings s _ rfl rfl rfl) hs
  split
  · exact hs
  · split
    · exact h.endEvent _ (h.latchEvent _ _ hw)
    · exact hw

theorem CommandStable.withButton (b : Button) (s : State) (hs : P s) : P (s.withButton b) :=
  h.outside _ _ (outside_qualSettings s _ rfl rfl rfl) hs

theorem CommandStable.pressLatch (s : State) (hs : P s) : P (pressLatch s).1 := by
  unfold Machine.pressLatch
  split
  · exact hs
  · exact h.latchEvent _ _ (h.withButton _ _ hs)

theorem CommandStable.press (s : State) (hs : P s) : P (press s).1 := by
  simp only [Machine.press]
  split
  · exact h.pressLatch _ (h.withButton _ _ hs)
  · exact h.withButton _ _ hs

theorem CommandStable.button_commands (s : State) (hs : P s) :
    (∃ t, execButtonPress s = .next t ∧ P t) ∧ (∃ t, execButtonRelease s = .next t ∧ P t) ∧
    (∃ t, execPressTimerExpiry s = .next t ∧ P t) ∧ (∃ t, execOverrideTimerExpiry s = .next t ∧ P t) := by
  refine ⟨⟨_, rfl, ?_⟩, ⟨_, rfl, ?_⟩, ⟨_, rfl, ?_⟩, ⟨_, rfl, ?_⟩⟩
  · split
    · exact hs
    · exact h.endEvent _ (h.press s hs)
  · split
    · exact h.withButton _ s hs
    · exact hs
  · split
    · exact h.endEvent _ (h.pressLatch _ (h.withButton _ s hs))
    · exact hs
  · split
    · exact h.endEvent _ (h.forcing _ _ _ (h.pressLatch _ (h.withButton _ s hs)))
    · exact hs

theorem CommandStable.stepSleep (s : State) (hs : P s) : P (stepSleep s) := by
  unfold Machine.stepSleep
  split
  · exact h.outside _ _ (outside_withQual s _ fun hb => ⟨hb.wakeTimer, Nat.min_le_left .., hb.divider⟩) hs
  · exact hs

theorem CommandStable.stepWakeTimer (s : State) (hs : P s) : P (stepWakeTimer s).1 := by
  have h1 : P (s.withQual { s.qual with wakeTimer := s.qual.wakeTimer - 1 }) :=
    h.outside _ _ (outside_withQual s _ fun hb =>
      ⟨Nat.le_trans (Nat.sub_le ..) hb.wakeTimer, hb.sleepCount, hb.divider⟩) hs
  simp only [Machine.stepWakeTimer]
  split
  · exact h.latchEvent _ _ h1
  · exact h1

theorem CommandStable.secondsStep (s : State) (hs : P s) : P (secondsStep s) :=
  h.endEvent _ (h.stepWakeTimer _ (h.stepSleep _
    (h.outside _ _ (outside_withQual s _ fun hb => ⟨hb.wakeTimer, hb.sleepCount, Nat.zero_le _⟩) hs)))

theorem CommandStable.seconds_commands (s : State) (hs : P s) :
    (∃ t, execSecondsStep s = .next t ∧ P t) ∧ (∃ t, execWakeTimerExpiry s = .next t ∧ P t) ∧
    (∃ t, execStormWindowExpiry s = .next t ∧ P t) := by
  refine ⟨⟨_, rfl, h.secondsStep s hs⟩, ⟨_, rfl, ?_⟩, ⟨_, rfl, ?_⟩⟩
  · split
    · exact h.secondsStep s hs
    · exact hs
  · split
    · exact h.window _ _ (h.counts s hs)
    · exact hs

/-! ### Power and the loading -/

theorem CommandStable.applyAfterLoss (left : Departed) (s : State) (hl : s.isLoading = false) (hs : P s) :
    P (applyAfterLoss left s).1 := by
  unfold Machine.applyAfterLoss
  split
  · next hc => exact h.restore left s hc.2.2 hl hs
  · exact hs

theorem CommandStable.power_commands (s : State) (hs : P s) :
    (∃ t, execPowerOnReset s = .next t ∧ P t) ∧ (∃ t, execMainsLoss s = .next t ∧ P t) ∧
    (∃ t, execMainsReturn s = .next t ∧ P t) := by
  refine ⟨⟨_, rfl, h.reset s hs⟩, ⟨_, rfl, ?_⟩, ⟨_, rfl, ?_⟩⟩
  · split
    · exact h.mainsLoss s hs
    · exact hs
  · split
    · exact hs
    · have hw : P (writeAcok true s) := h.outside _ _ (outside_qualSettings s _ rfl rfl rfl) hs
      simp only [mainsReturn]
      split
      · exact hw
      · next hl =>
        have hload : s.isLoading = false := by simpa using hl
        exact h.endEvent _ (h.applyAfterLoss _ _ hload hw)

theorem CommandStable.endAsPowerOn (l : Loading) (left : Departed) (s : State) (hl : s.LoadsAs l)
    (hk : (l.byReinit && !l.mainsLost) = false) (hs : P s) : P (endAsPowerOn left s).1 := by
  have hnone : (recomputeLink ((startWindow (computeArmed .softoff s)).withLoading none)).isLoading = false := by
    simp only [State.isLoading, recomputeLink_ldr]; rfl
  exact h.applyAfterLoss _ _ hnone (h.outside _ _ (outside_withServing _ _) (h.endPower l s hl hk hs))

theorem CommandStable.endAsReinit (l : Loading) (code : ResultCode) (left : Departed) (s : State) (hl : s.LoadsAs l)
    (hk : (l.byReinit && !l.mainsLost) = true) (hs : P s) : P (endAsReinit l code left s).1 := by
  refine h.outside _ _ (outside_endService code _) ?_
  unfold takeDeferred
  split
  · exact h.forcing _ _ _ (h.endReinit l s hl hk hs)
  · exact h.endReinit l s hl hk hs

theorem CommandStable.endLoading (l : Loading) (status : LoaderStatus) (p : State × Departed) (hl : p.1.LoadsAs l)
    (hs : P p.1) : P (endLoading l status p) := by
  have h1 := h.outside _ _ (outside_withStatusCode p.1 status) hs
  refine h.endEvent _ ?_
  split
  · next hk => exact h.endAsReinit l _ _ _ hl hk (h.window _ _ h1)
  · next hk => exact h.endAsPowerOn l _ _ hl (by simpa using hk) h1

omit h in
theorem loadsAs_of_loading {s : State} {l : Loading} (hl : s.ldr.loading = some l) : s.LoadsAs l := by
  simp [State.LoadsAs, hl]

omit h in
@[simp] theorem fallbackTables_ldr (s : State) : (fallbackTables s).ldr = s.ldr := by
  simp [fallbackTables, emptyTables]

theorem CommandStable.fallBack (l : Loading) (status : LoaderStatus) (s : State) (hl : s.ldr.loading = some l)
    (hs : P s) : P (fallBack l status s) :=
  h.endLoading l status _ (loadsAs_of_loading (by simpa using hl)) (h.fallback l s hl hs)

theorem CommandStable.failReinit (l : Loading) (s : State) (hl : s.ldr.loading = some l) (hr : l.byReinit = true)
    (hs : P s) : P (failReinit l s) := by
  refine h.endEvent _ ?_
  split
  · next hm => exact h.endAsPowerOn l _ s (loadsAs_of_loading hl) (by simp [hm]) hs
  · next hm => exact h.endAsReinit l _ _ s (loadsAs_of_loading hl) (by simp [hr, hm]) hs

theorem CommandStable.imageUnusable (l : Loading) (status : LoaderStatus) (s : State) (hl : s.ldr.loading = some l)
    (hs : P s) : P (imageUnusable l status s) := by
  unfold Machine.imageUnusable
  split
  · next hr => exact h.failReinit l s hl hr hs
  · exact h.fallBack l status s hl hs

theorem CommandStable.header_command (b0 b1 b2 b3 b4 : Byte) (s : State) (hs : P s) :
    ∃ t, execImageHeaderRead b0 b1 b2 b3 b4 s = .next t ∧ P t := by
  refine ⟨_, rfl, ?_⟩
  split
  · next l hl =>
    split
    · split
      · exact h.phase l _ s hl hs
      · exact h.imageUnusable l _ s hl hs
    all_goals exact hs
  · exact hs

omit h in
@[simp] theorem acceptReinit_ldr (s : State) : (acceptReinit s).ldr = s.ldr := by simp [acceptReinit, emptyTables]; rfl

theorem CommandStable.image_command (rest : List Byte) (s : State) (hs : P s) :
    ∃ t, execImageReadComplete rest s = .next t ∧ P t := by
  refine ⟨_, rfl, ?_⟩
  split
  · next l hl =>
    split
    · split
      · exact hs
      · split
        · split
          · next hr => exact h.phase l _ _ (by simpa using hl) (h.acceptImage l s hl hr hs)
          · exact h.phase l _ s hl hs
        · exact h.imageUnusable l _ s hl hs
    all_goals exact hs
  · exact hs

end

/-! ## The loading while a record is applied -/

/-- What leaves `kept` alone leaves a loading alone but for an event deferred to its end. -/
theorem loading_of_kept {s t : State} (hk : t.kept = s.kept) :
    t.ldr.loading.map Loading.kept = s.ldr.loading.map Loading.kept := by
  have := congrArg (fun x : State => x.ldr.loading) hk
  simpa only [State.kept] using this

theorem writeLine_loading (k : WakeLine) (mode : LineMode) (code : TimeCode) (p : State × Departed) :
    (writeLine k mode code p).1.ldr.loading.map Loading.kept = p.1.ldr.loading.map Loading.kept := by
  obtain ⟨q, hq⟩ := writeLine_eq k mode code p
  rw [hq]
  split
  · exact loading_of_kept (s := p.1.withQual { p.1.qual with lines := p.1.qual.lines.set k q }) (latchFrom_kept _ _)
  · rfl

theorem writeLines_loading (settings : List (LineMode × TimeCode)) (first : Nat) (p : State × Departed) :
    (writeLines first settings p).1.ldr.loading.map Loading.kept = p.1.ldr.loading.map Loading.kept := by
  induction settings generalizing first p with
  | nil => rfl
  | cons x rest ih =>
    obtain ⟨mode, code⟩ := x
    simp only [writeLines]
    rw [ih]
    split
    · exact writeLine_loading _ _ _ _
    · rfl

theorem rearmAtRest_ldr (s : State) : (rearmAtRest s).ldr = s.ldr := by
  unfold rearmAtRest
  split
  · split <;> rfl
  all_goals rfl

/-- A record leaves the loading alone but for an event deferred to its end. -/
theorem applyWrite_loading (w : SetWrite) (s : State) :
    (applyWrite w s).1.ldr.loading.map Loading.kept = s.ldr.loading.map Loading.kept := by
  cases w with
  | lineQualifiers first settings => exact writeLines_loading settings first _
  | domains first configs holder =>
    simp only [applyWrite, writeDomains]
    split
    · rfl
    · rw [recomputeLink_ldr]; rfl
  | wakeSettings e a b c threshold window =>
    exact congrArg (fun x : Loader => x.loading.map Loading.kept) (rearmAtRest_ldr (s.withWake _))
  | _ => rfl

theorem applyWrite_loadsAs {s : State} {l : Loading} (w : SetWrite) (hl : s.LoadsAs l) : (applyWrite w s).1.LoadsAs l := by
  have hk := congrArg (Option.map fun x : Loading => (x.byReinit, x.mainsLost)) (applyWrite_loading w s)
  simp only [Option.map_map] at hk
  exact hk.trans hl

theorem loadsAs_of_phase (l : Loading) (x : LoadPhase) (s : State) :
    (s.withLoading (some { l with phase := x })).LoadsAs l := rfl

section
variable {P : State → Prop} (h : CommandStable P)
include h

theorem CommandStable.applyRecord (l : Loading) (area : List Byte) (s : State) (hl : s.ldr.loading = some l) (hs : P s) :
    P (applyRecord l area s) := by
  unfold Machine.applyRecord
  split
  · exact h.endLoading l _ _ (loadsAs_of_loading hl) hs
  · split
    · exact h.fallBack l _ s hl hs
    · split
      · exact h.fallBack l _ s hl hs
      · next body after _ _ w hw =>
        have hv := recordCheck_valid hw
        have h1 := h.phase l (.records after) s hl hs
        have ho : (s.withLoading (some { l with phase := .records after })).TablesOpen := .inr rfl
        split
        · exact h.endLoading l _ _ (applyWrite_loadsAs w (loadsAs_of_phase l _ s)) (h.applyWrite w _ hv ho h1)
        · exact h.writeAndTest w _ hv ho h1

theorem CommandStable.record_command (s : State) (hs : P s) : ∃ t, execLoaderRecordApply s = .next t ∧ P t := by
  refine ⟨_, rfl, ?_⟩
  split
  · next l hl =>
    split
    · exact h.applyRecord l _ s hl hs
    all_goals exact hs
  · exact hs

/-! ## Every command and every step -/

/-- Every command answers a next state and keeps P. -/
theorem CommandStable.exec (c : Instr) (s : State) (hs : P s) : ∃ t, exec c s = .next t ∧ P t := by
  obtain ⟨upDiscard, downDiscard, linkDiscard⟩ := h.discard_commands s hs
  obtain ⟨reset, loss, restored⟩ := h.power_commands s hs
  obtain ⟨pressed, released, pressTimer, override⟩ := h.button_commands s hs
  obtain ⟨seconds, wakeTimer, window⟩ := h.seconds_commands s hs
  have get := fun selector data => h.outside _ _ (outside_serveGet selector data s) hs
  cases c with
  | powerOnReset => exact reset
  | mainsLoss => exact loss
  | mainsReturn => exact restored
  | frameReceived p r bytes => exact ⟨_, rfl, h.outside _ _ (outside_receiveFrame p r bytes s) hs⟩
  | upstreamRoutingDiscard => exact upDiscard
  | downstreamRoutingDiscard => exact downDiscard
  | linkDownInputDiscard => exact linkDiscard
  | outputArbiterFill p =>
    refine ⟨_, rfl, ?_⟩
    split
    · next hc => exact h.outside _ _ (outside_fillOutput p s hc.1 hc.2) hs
    · exact hs
  | go => exact h.go_command s hs
  | setStepStore => exact ⟨_, rfl, h.serveSet _ _ (fun _ _ _ => checkSteps_valid) s hs⟩
  | setSequenceDirectory => exact ⟨_, rfl, h.serveSet _ _ (fun _ _ _ => checkDirectory_valid) s hs⟩
  | setDomainConfiguration => exact ⟨_, rfl, h.serveSet _ _ (fun _ _ _ => checkDomains_valid) s hs⟩
  | setAgentMap => exact ⟨_, rfl, h.serveSet _ _ (fun _ _ _ => checkAgents_valid) s hs⟩
  | setWakeMatchTable => exact ⟨_, rfl, h.serveSet _ _ (fun _ _ _ => checkMatches_valid) s hs⟩
  | setWakeSettings => exact ⟨_, rfl, h.serveSet _ _ (fun _ _ _ => checkWakeSettings_valid) s hs⟩
  | setLineQualifiers => exact ⟨_, rfl, h.serveSet _ _ (fun _ _ _ => checkLines_valid) s hs⟩
  | setButtonSettings => exact ⟨_, rfl, h.serveSet _ _ (fun _ _ _ => checkButton_valid) s hs⟩
  | setWakeTimer => exact ⟨_, rfl, h.serveSet _ _ (fun _ _ _ => checkWakeTimer_valid) s hs⟩
  | setSafeLevels => exact ⟨_, rfl, h.serveSet _ _ (fun _ _ _ => checkSafeLevels_valid) s hs⟩
  | setRetainedResumeArea => exact ⟨_, rfl, h.serveSet _ _ (fun _ _ _ => checkRetained_valid) s hs⟩
  | reinit => exact h.reinit_command s hs
  | getStepStore => exact ⟨_, rfl, get _ _⟩
  | getSequenceDirectory => exact ⟨_, rfl, get _ _⟩
  | getDomainConfiguration => exact ⟨_, rfl, get _ _⟩
  | getDomainStatus => exact ⟨_, rfl, get _ _⟩
  | getAgentMap => exact ⟨_, rfl, get _ _⟩
  | getWakeMatchTable => exact ⟨_, rfl, get _ _⟩
  | getWakeSettings => exact ⟨_, rfl, get _ _⟩
  | getWakeStatus => exact ⟨_, rfl, get _ _⟩
  | getStormCounts => exact ⟨_, rfl, get _ _⟩
  | getWakeContext => exact ⟨_, rfl, h.outside _ _ (outside_drawn _ _ _) (get _ _)⟩
  | getLineQualifiers => exact ⟨_, rfl, get _ _⟩
  | getButtonSettings => exact ⟨_, rfl, get _ _⟩
  | getWakeTimer => exact ⟨_, rfl, get _ _⟩
  | getSafeLevels => exact ⟨_, rfl, get _ _⟩
  | getEngineState => exact ⟨_, rfl, get _ _⟩
  | getLastReport => exact ⟨_, rfl, h.outside _ _ (outside_drawn _ _ _) (get _ _)⟩
  | getHoldQueue => exact ⟨_, rfl, get _ _⟩
  | getPowerGoodLevels => exact ⟨_, rfl, get _ _⟩
  | getCounters => exact ⟨_, rfl, get _ _⟩
  | getRetainedResumeArea => exact ⟨_, rfl, get _ _⟩
  | getLoaderStatus => exact ⟨_, rfl, get _ _⟩
  | clearWakeLatch =>
    exact ⟨_, rfl, h.serveClear _ _ (fun x s hs => h.endEvent _ (h.relatch _ _ (h.latch _ s hs))) s hs⟩
  | clearSuppressed => exact ⟨_, rfl, h.serveClear _ _ h.suppression s hs⟩
  | clearRailFaults => exact ⟨_, rfl, h.serveClear _ _ h.clearRails s hs⟩
  | clearCounters =>
    exact ⟨_, rfl, h.serveClear _ _ (fun x s hs => h.outside _ _ (outside_clearCounters x s) hs) s hs⟩
  | managementRequestBadSelector => exact h.badSelector_command s hs
  | downstreamTraffic => exact (h.traffic_commands s hs).1
  | upstreamAnswer => exact (h.traffic_commands s hs).2
  | matcherTakeMessage => exact h.message_command s hs
  | orderDone => exact h.orderDone_command s hs
  | orderTimeout p => exact (h.stepTimer_commands p s hs).1
  | awaitGoodTimeout p => exact (h.stepTimer_commands p s hs).2.1
  | lineSettleExpiry p => exact (h.stepTimer_commands p s hs).2.2.1
  | delayExpiry p => exact (h.stepTimer_commands p s hs).2.2.2
  | undoOrderTimeout => exact (h.undoTimer_commands s hs).1
  | undoLineSettleExpiry => exact (h.undoTimer_commands s hs).2
  | powerGoodChange l b => exact (h.rail_commands l b 0 s hs).1
  | blankingExpiry d => exact (h.rail_commands 0 true d s hs).2
  | lineFilteredChange k high => exact h.line_command k high s hs
  | buttonPress => exact pressed
  | buttonRelease => exact released
  | pressTimerExpiry => exact pressTimer
  | overrideTimerExpiry => exact override
  | secondsStep => exact seconds
  | wakeTimerExpiry => exact wakeTimer
  | stormWindowExpiry => exact window
  | imageHeaderRead b0 b1 b2 b3 b4 => exact h.header_command b0 b1 b2 b3 b4 s hs
  | imageReadComplete bytes => exact h.image_command bytes s hs
  | loaderRecordApply => exact h.record_command s hs
  | startDelimiterBeforeFrameEnd p =>
    exact ⟨_, rfl, h.outside _ _ ((outside_receiving p s _).trans (outside_countFrameError p _)) hs⟩

end

/-- A step keeps P, if the removal of a command from the queue does. -/
theorem CommandStable.step {P : State → Prop} (h : CommandStable P) (hq : ∀ q s, P s → P (s.withPending q)) {s t : State}
    (hstep : step s = .next t) (hs : P s) : P t := by
  have run : ∀ c s', P s' → Machine.exec c s' = .next t → P t := fun c s' hs' he => by
    obtain ⟨u, hu, hpu⟩ := h.exec c s' hs'
    obtain rfl := Host.Outcome.next.inj (hu.symm.trans he)
    exact hpu
  have hd : P (s.withDraws (s.draws + 1)) := h.outside _ _ (outside_withDraws s _) hs
  unfold Machine.step at hstep
  split at hstep
  · exact run _ _ (hq _ s hs) hstep
  · unfold idle at hstep
    split at hstep
    · obtain rfl := Host.Outcome.next.inj hstep
      exact h.edge _ _ hd
    · exact run _ _ hd hstep

end Sys2Proof.Machine
end

section
/-! SUPPORT. The capacities and ranges, source 0, the queue of commands and the upstream link, through every step. The
statements O3, O56, O59 and O60 are settled here. -/

namespace Sys2Proof.Machine

variable {P : State → Prop}

/-! ## The Engine's events under a property that its primitive writes keep -/

theorem Stable.clearForGo (h : Stable P) (b : Bool) (s : State) (hs : P s) : P (clearForGo b s) := by
  unfold Machine.clearForGo
  split
  · exact hs
  · exact h.wake s _ rfl rfl rfl hs

theorem Stable.acceptGo (h : Stable P) (ho : ∀ s t, Outside s t → P s → P t) (f : Frame) (t : Sleep) (c : Bool)
    (steps : List PlanStep) (s : State) (hs : P s) : P (acceptGo f t c steps s).1 := by
  have h1 : P (enterSleep t c steps s) :=
    h.permit _ _ (h.engine _ _ rfl (h.computeArmed t _ (h.clearForGo c s hs)))
  exact h.relatch _ _ (h.settle _ (h.runSteps _ _ _ (ho _ _ (outside_answer _ _ _ _) h1)))

theorem Stable.removeOrder (h : Stable P) (o : OrderEntry) (s : State) (hs : P s) : P (removeOrder o s) :=
  h.eng s _ ⟨rfl, rfl, rfl, rfl, rfl⟩ hs

theorem Stable.undoFailed (h : Stable P) (u : UndoRun) (d : Domain) (c : FaultCause) (s : State) (hs : P s) :
    P (undoFailed u d c s).1 := h.undoEnded _ _ (h.cause _ _ _ (h.domain _ _ _ hs))

theorem Stable.orderMatched (h : Stable P) (o : OrderEntry) (reached : OrdState) (s : State) (hs : P s) :
    P (orderMatched o reached s).1 := by
  have h1 := h.removeOrder o s hs
  simp only [Machine.orderMatched]
  split
  · split
    · split
      · exact h.memberCompleted _ _ (h.domain _ _ _ h1)
      · exact h.memberFailed _ _ _ _ _ h1
    · exact h.domain _ _ _ h1
  · split
    · split
      · exact h.undoEnded _ _ (h.domain _ _ _ h1)
      · exact h.undoFailed _ _ _ _ h1
    · exact h.domain _ _ _ h1

theorem outside_countLate (s : State) : Outside s (countLate s) :=
  ⟨rfl, rfl, rfl, rfl, rfl, fun h => { h with late := saturate_le _ _ }, id⟩

theorem outside_countStray (s : State) : Outside s (countStray s) :=
  ⟨rfl, rfl, rfl, rfl, rfl, fun h => { h with stray := saturate_le _ _ }, id⟩

theorem Stable.takeOrderDone (h : Stable P) (ho : ∀ s t, Outside s t → P s → P t) (f : Frame) (s : State) (hs : P s) :
    P (takeOrderDone f s).1 := by
  have stray := ho _ _ (outside_countStray s) hs
  unfold Machine.takeOrderDone
  split
  · exact h.discard _ _ hs
  · split
    · exact h.orderMatched _ _ _ hs
    · unfold orderUnmatched
      split
      · split
        · have hl := fun d st => ho _ _ (outside_countLate _) (h.domain d st s hs)
          simp only [lateDone]
          split
          · exact h.leaveRising _ _ _ (hl _ _)
          · exact hl _ _
        · exact stray
      · exact stray

theorem Stable.completeAwaiting (h : Stable P) (l : PgLine) (b : Bool) (s : State) (hs : P s) :
    P (completeAwaiting l b s).1 := by
  unfold Machine.completeAwaiting
  split
  · exact hs
  · exact h.settle _ (h.groupTest _ (pair_foldl _ (fun p m hp => h.completeMember m p.2 p.1 hp) _ _ hs))

/-! ## Properties that do not read the link state -/

/-- P survives every write of the tables, of the loading and of the link state besides. -/
structure LinkFree (P : State → Prop) : Prop extends Stable P where
  outside : ∀ s t, Outside s t → P s → P t
  reset   : ∀ s, P s → P ((State.reset.withPending s.pending).withDraws s.draws)
  edge    : ∀ p s, P s → P (slowEdge p s)
  wakes   : ∀ (s : State) w, (s.SourceZeroHeld → (s.withWake w).SourceZeroHeld) → P s → P (s.withWake w)
  doms    : ∀ (s : State) x, P s → P (s.withDom x)
  engines : ∀ (s : State) x, P s → P (s.withEng x)
  loads   : ∀ (s : State) x, P s → P (s.withLdr x)
  link    : ∀ s, P s → P (recomputeLink s)

theorem clearedCounts_getElem (w : WakeUnit) (k : Source) :
    w.clearedCounts[k] = if hasBit w.suppressed k then w.stormCount[k] else 0 := by
  simp [WakeUnit.clearedCounts]

/-- Counts of which some have been set to 0. -/
theorem State.SourceZeroHeld.countsCleared {s : State} {w : WakeUnit} (h : s.SourceZeroHeld)
    (hs : w.suppressed.getLsbD 0 = false) (hc : ∀ k : Source, w.stormCount[k] = s.wake.stormCount[k] ∨ w.stormCount[k] = 0)
    (he : w.enable = s.wake.enable) (h1 : w.maskStandby = s.wake.maskStandby) (h2 : w.maskHibernate = s.wake.maskHibernate)
    (h3 : w.maskSoftoff = s.wake.maskSoftoff) (ht : w.threshold = s.wake.threshold) : (s.withWake w).SourceZeroHeld where
  enabled := he ▸ h.enabled
  standby := h1 ▸ h.standby
  hibernate := h2 ▸ h.hibernate
  softoff := h3 ▸ h.softoff
  suppressed := hs
  count := by
    obtain e | e := hc 0
    · exact e.trans h.count
    · exact e
  thresholdLow := ht ▸ h.thresholdLow
  thresholdHigh := ht ▸ h.thresholdHigh
  counts k := by
    show w.stormCount[k] ≤ 255
    obtain e | e := hc k
    · rw [e]; exact h.counts k
    · rw [e]; exact Nat.zero_le _

section
variable (h : LinkFree P)
include h

theorem LinkFree.windowTimer (n : Option Nat) (s : State) (hs : P s) : P (s.withWake { s.wake with windowTimer := n }) :=
  h.wakes s _ (fun hz => { hz with }) hs

theorem LinkFree.stormCounts (s : State) (hs : P s) : P (s.withWake { s.wake with stormCount := s.wake.clearedCounts }) := by
  refine h.wakes s _ (fun hz => hz.countsCleared hz.suppressed (fun k => ?_) rfl rfl rfl rfl rfl) hs
  show s.wake.clearedCounts[k] = _ ∨ s.wake.clearedCounts[k] = 0
  rw [clearedCounts_getElem]
  split <;> simp

theorem LinkFree.rearmAtRest (s : State) (hs : P s) : P (rearmAtRest s) := by
  unfold Machine.rearmAtRest
  split
  · split
    · exact hs
    · exact h.computeArmed _ _ hs
  all_goals exact hs

theorem LinkFree.clearSuppression (named : SourceSet) (s : State) (hs : P s) : P (clearSuppression named s) := by
  simp only [Machine.clearSuppression]
  split
  · exact hs
  · have h1 : P (s.withWake { s.wake with
        suppressed := diff s.wake.suppressed named,
        stormCount := Vector.ofFn fun src =>
          if hasBit (s.wake.suppressed &&& named) src then 0 else s.wake.stormCount[src] }) := by
      refine h.wakes s _ (fun hz => hz.countsCleared ?_ (fun k => ?_) rfl rfl rfl rfl rfl) hs
      · exact (diff_getLsbD s.wake.suppressed named (0 : Fin 16)).trans (by rw [show s.wake.suppressed.getLsbD ((0 : Fin 16) : Nat) = false from hz.suppressed]; rfl)
      · simp only [Fin.getElem_fin, Vector.getElem_ofFn, Fin.eta]
        split <;> simp
    unfold rearmAfterClear
    split
    · exact h.computeArmed _ _ h1
    all_goals exact h.rearmAtRest _ h1

theorem LinkFree.writeWakeSettings (e a b c : SourceSet) (threshold : Nat) (w : TimeCode) (s : State)
    (hv : (SetWrite.wakeSettings e a b c threshold w).Valid) (hs : P s) :
    P (writeWakeSettings e a b c threshold w s) := by
  obtain ⟨he, ha, hb, hc, hlow, hhigh⟩ := hv
  refine h.rearmAtRest _ (h.wakes s _ (fun hz => ?_) hs)
  have counts : ∀ k : Source, (if decide (threshold ≠ s.wake.threshold ∨ w ≠ s.wake.window) then s.wake.clearedCounts
      else s.wake.stormCount)[k] ≤ s.wake.stormCount[k] := fun k => by
    split
    · rw [clearedCounts_getElem]; split <;> simp
    · exact Nat.le_refl _
  exact {
    enabled := he, standby := ha, hibernate := hb, softoff := hc, suppressed := hz.suppressed
    count := Nat.le_zero.1 (Nat.le_trans (counts 0) (Nat.le_of_eq hz.count))
    thresholdLow := hlow, thresholdHigh := hhigh
    counts := fun k => Nat.le_trans (counts k) (hz.counts k) }

theorem LinkFree.emptyTables (s : State) (hs : P s) : P (emptyTables s) := by
  refine h.link _ (h.outside _ _ (outside_withLines _ _) (h.outside _ _ (outside_qualSettings _ _ rfl rfl rfl)
    (h.wakes _ _ (fun hz => ?_) (h.outside _ _ (outside_withMatcher _ _) (h.doms _ _ (h.engines s _ hs))))))
  exact { hz with
    enabled := (by decide : (1#16).getLsbD 0 = true)
    standby := (by decide : (0#16).getLsbD 0 = false)
    hibernate := (by decide : (0#16).getLsbD 0 = false)
    softoff := (by decide : (0#16).getLsbD 0 = false)
    thresholdLow := Nat.le_refl 1
    thresholdHigh := (by decide : 1 ≤ 255) }

omit h in
theorem outside_clearHold (s : State) : Outside s (clearHold s) := outside_withGate s _ fun _ => Nat.zero_le _

omit h in
theorem outside_zeroCounters (s : State) : Outside s (s.withCounters ⟨0, 0, 0, 0, 0, 0⟩) :=
  ⟨rfl, rfl, rfl, rfl, rfl, fun h => { h with
    frameErrorsUp := Nat.zero_le _, frameErrorsDn := Nat.zero_le _, discarded := Nat.zero_le _, stray := Nat.zero_le _,
    late := Nat.zero_le _, holdOverflow := Nat.zero_le _ }, id⟩

theorem LinkFree.acceptReinit (s : State) (hs : P s) : P (acceptReinit s) := by
  have h1 := h.outside _ _ ((outside_clearHold s).trans (outside_zeroCounters _)) hs
  refine h.emptyTables _ (h.engines _ _ (h.wakes _ _ (fun hz => ?_) h1))
  exact hz.countsCleared (by decide : (0#16).getLsbD 0 = false) (fun k => .inr (by simp)) rfl rfl rfl rfl rfl

theorem LinkFree.fallbackTables (s : State) (hs : P s) : P (fallbackTables s) :=
  h.engines _ _ (h.doms _ _ (h.emptyTables s hs))

theorem LinkFree.writeDomains (first : Nat) (configs : List DomainConfig) (holder : Domain) (s : State) (hs : P s) :
    P (writeDomains first configs holder s) := by
  simp only [Machine.writeDomains]
  split
  · exact h.doms _ _ hs
  · exact h.link _ (h.doms _ _ hs)

theorem LinkFree.armAtMainsLoss (s : State) (hs : P s) : P (armAtMainsLoss s) := by
  unfold Machine.armAtMainsLoss
  split
  · exact h.emptyArmed _ hs
  · exact h.computeArmed _ _ hs

theorem LinkFree.mainsLoss (s : State) (hs : P s) : P (mainsLoss s) := by
  have h0 : P (noteMainsLoss (writeAcok false s)) := by
    have hw : P (writeAcok false s) := h.outside _ _ (outside_qualSettings s _ rfl rfl rfl) hs
    unfold noteMainsLoss
    split
    · exact h.loads _ _ hw
    · exact hw
  exact h.recordReport _ _ (h.startSleepCount _ (h.armAtMainsLoss _ (h.setArm _ (h.withPlatform _ _
    (h.allDomainsOff _ (h.levels _ _ (h.outside _ _ (outside_clearHold _) (h.engines _ _ (h.clearWork _ h0)))))))))

/-- Every command keeps a property that does not read the link state. -/
theorem LinkFree.commandStable : CommandStable P where
  outside := h.outside
  reset := h.reset
  edge := h.edge
  status _ _ _ _ hs := h.doms _ _ hs
  endEvent p hp := h.endEvent p hp
  latch _ s hs := h.wake s _ rfl rfl rfl hs
  window := h.windowTimer
  counts := h.stormCounts
  suppression := h.clearSuppression
  latchFrom := h.latchFrom
  go f t c steps s _ _ hs := h.toStable.acceptGo h.outside f t c steps s hs
  orderDone f s _ hs := h.toStable.takeOrderDone h.outside f s hs
  completed m s _ hs := h.memberCompleted m s hs
  failed m d st c s _ hs := h.memberFailed m d st c s hs
  undoFailed u d c s _ hs := h.toStable.undoFailed u d c s hs
  undoDone u _ _ hs := h.undoEnded u _ (h.undoLineDone _ _ hs)
  awaiting l b s hs := h.toStable.completeAwaiting l b s hs
  forcing := h.forcingEvent
  restore left s _ _ hs := h.acceptWake _ _ left s hs
  mainsLoss := h.mainsLoss
  store s _ _ hs := h.engines s _ hs
  directory s _ _ _ _ hs := h.engines s _ hs
  domains first configs holder s _ hs := h.writeDomains first configs holder s hs
  agents s _ hs := h.doms s _ hs
  settings e a b c threshold w s _ hv hs := h.writeWakeSettings e a b c threshold w s hv hs
  reinit _ s _ _ _ hs := h.loads _ _ (h.outside _ _ (outside_withServing s _) hs)
  phase _ _ s _ hs := h.loads s _ hs
  acceptImage _ s _ _ hs := h.acceptReinit s hs
  fallback _ s _ hs := h.fallbackTables s hs
  endPower _ s _ _ hs := h.link _ (h.loads _ _ (h.windowTimer _ _ (h.computeArmed _ s hs)))
  endReinit _ s _ _ hs := h.link _ (h.loads s _ hs)

end

/-! ## The queue of commands -/

theorem linkFree_pending (q : List Instr) : LinkFree (fun s => s.pending = q) where
  queueUp f s hs := (queueUp_pending s f).trans hs
  queueDown f s hs := (queueDown_pending s f).trans hs
  discard _ _ hs := hs
  hold _ _ _ hs := hs
  domain d st s hs := (writeDomain_pending s d st).trans hs
  cause _ _ _ hs := hs
  eng _ _ _ hs := hs
  levels _ _ hs := hs
  ownTaken _ _ hs := hs
  permit _ _ hs := hs
  engine _ _ _ hs := hs
  arms _ _ _ hs := hs
  sleep _ _ _ _ hs := hs
  fault _ _ _ hs := hs
  wake _ _ _ _ _ hs := hs
  storm src s hs := by
    have hk := congrArg State.pending (stormStep_kept src s)
    exact (hk.trans rfl : (stormStep src s).pending = s.pending).trans hs
  deferral c s hs := by
    have hk := congrArg State.pending (deferForcing_kept c s)
    exact (hk.trans rfl : (deferForcing c s).pending = s.pending).trans hs
  outside _ _ ho hs := ho.pending.trans hs
  reset _ hs := hs
  edge _ _ hs := hs
  wakes _ _ _ hs := hs
  doms _ _ hs := hs
  engines _ _ hs := hs
  loads _ _ hs := hs
  link s hs := (recomputeLink_pending s).trans hs

/-- Settles O3: the queue is one of the properties that every command keeps. -/
theorem everyCommandCompletesAndKeepsQueue : Obligations.EveryCommandCompletesAndKeepsQueue :=
  fun c s => (linkFree_pending s.pending).commandStable.exec c s rfl

/-! ## Capacities, ranges and source 0 -/

theorem Port.tick_bounds (x : Port) (b : Bool) :
    (x.tick b).input = x.input ∧ (x.tick b).own = x.own ∧ (x.tick b).output.length ≤ x.output.length ∧
    (x.tick b).forwarded = x.forwarded := by
  unfold Port.tick
  split
  · exact ⟨rfl, rfl, Nat.le_refl _, rfl⟩
  · next ho =>
    split
    · exact ⟨rfl, rfl, by rw [ho]; simp, rfl⟩
    · exact ⟨rfl, rfl, Nat.le_refl _, rfl⟩
  · exact ⟨rfl, rfl, Nat.le_refl _, rfl⟩

theorem bounded_slowEdge (p : Pins) (s : State) (h : s.Bounded) : (slowEdge p s).Bounded := by
  obtain ⟨ui, uo, ut, _⟩ := s.up.tick_bounds p.upstreamReady
  obtain ⟨di, dO, dt, _⟩ := s.down.tick_bounds p.downstreamReady
  exact { h with
    upInput := by show (s.up.tick _).input.length ≤ 4; rw [ui]; exact h.upInput
    upOwn := by show (s.up.tick _).own.length ≤ 24; rw [uo]; exact h.upOwn
    upOutput := Nat.le_trans ut h.upOutput
    downInput := by show (s.down.tick _).input.length ≤ 4; rw [di]; exact h.downInput
    downOwn := by show (s.down.tick _).own.length ≤ 24; rw [dO]; exact h.downOwn
    downOutput := Nat.le_trans dt h.downOutput
    divider := Nat.le_of_lt_succ (Nat.mod_lt _ (by decide)) }

theorem bounded_reset (q : List Instr) (n : Nat) : ((State.reset.withPending q).withDraws n).Bounded := by
  constructor
  case retained => rfl
  all_goals simp [State.reset, Port.empty, Management.initial, Qualifiers.initial]

theorem linkFree_bounded : LinkFree State.Bounded where
  toStable := bounded_stable
  outside _ _ ho hs := ho.bounded hs
  reset _ _ := bounded_reset _ _
  edge := bounded_slowEdge
  wakes _ _ _ hs := { hs with }
  doms _ _ hs := { hs with }
  engines _ _ hs := { hs with }
  loads _ _ hs := { hs with }
  link := bounded_recomputeLink

theorem sourceZero_reset (q : List Instr) (n : Nat) : ((State.reset.withPending q).withDraws n).SourceZeroHeld := by
  constructor
  all_goals simp [State.reset, WakeUnit.initial]

theorem linkFree_sourceZero : LinkFree State.SourceZeroHeld where
  toStable := sourceZero_stable
  outside _ _ ho hs := SourceZeroHeld.of_wake hs ho.wake
  reset _ _ := sourceZero_reset _ _
  edge _ _ hs := { hs with }
  wakes _ _ hw hs := hw hs
  doms _ _ hs := { hs with }
  engines _ _ hs := { hs with }
  loads _ _ hs := { hs with }
  link s hs := SourceZeroHeld.of_wake hs (recomputeLink_wake s)

/-- Settles O56: both laws survive every write that does not read the link state. -/
theorem everyStepKeepsCapacitiesAndSourceZero : Obligations.EveryStepKeepsCapacitiesAndSourceZero :=
  fun _ _ hstep hb hz =>
    ⟨linkFree_bounded.commandStable.step (fun _ _ h => { h with }) hstep hb,
      linkFree_sourceZero.commandStable.step (fun _ _ h => { h with }) hstep hz⟩

/-! ## The upstream link -/

theorem linkRight_linkUp {s : State} (h : s.LinkRight) (hh : s.linkHeld = true) : s.dom.linkUp = true := by
  unfold State.LinkRight at h
  rwa [if_pos hh] at h

/-- A recomputation of the link restores the law from any state in which a link that is held is UP and a link that is DOWN
is quiet. -/
theorem linkLaw_recomputeLink (s : State) (hh : s.linkHeld = true → s.dom.linkUp = true) (hq : s.QuietWhenDown) :
    (recomputeLink s).LinkLaw := ⟨linkRight_recomputeLink s hh, quiet_recomputeLink s hq⟩

/-- With every domain recorded OFF and the link not held, the law holds. -/
theorem linkLaw_allDomainsOff (s : State) (hh : s.linkHeld = false) (hq : s.QuietWhenDown) : (allDomainsOff s).LinkLaw := by
  have hoff := offAfter_allDomainsOff s hh
  constructor
  · have hst := hoff.status (allDomainsOff s).dom.controller
    rw [if_pos (mem_allDomains _)] at hst
    have hlink : (allDomainsOff s).dom.linkUp = false := by rw [hoff.link]; simp [mem_allDomains]
    unfold State.LinkRight State.linkHeld
    rw [hoff.ldr, if_neg (by unfold State.linkHeld at hh; simp [hh]), hlink, State.recorded, hst]
    rfl
  · refine List.foldlRecOn (motive := fun t => State.QuietWhenDown t) allDomains _ hq fun t ht d _ => ?_
    simp only [writeDomain, if_neg (show ¬ DomState.off = DomState.on by simp)]
    split
    · exact quiet_recomputeLink _ ht
    · exact ht

theorem linkLaw_outside (s t : State) (ho : Outside s t) (h : s.LinkLaw) : t.LinkLaw := by
  refine ⟨?_, ho.quiet h.quiet⟩
  unfold State.LinkRight State.linkHeld State.recorded
  rw [ho.dom, ho.loading]
  exact h.right

theorem linkLaw_reset (q : List Instr) (n : Nat) : ((State.reset.withPending q).withDraws n).LinkLaw :=
  ⟨by unfold State.LinkRight; simp [State.linkHeld, State.recorded, State.reset, Loader.initial, DomainTable.initial,
    DomainStatus.initial], fun _ => ⟨rfl, rfl, rfl⟩⟩

theorem linkLaw_slowEdge (p : Pins) (s : State) (h : s.LinkLaw) : (slowEdge p s).LinkLaw := by
  obtain ⟨_, ho, hout, hf⟩ := s.up.tick_bounds p.upstreamReady
  constructor
  · have hr : (slowEdge p s).recorded (slowEdge p s).dom.controller = s.recorded s.dom.controller := by
      simp [slowEdge, State.recorded, tickDomains]
    unfold State.LinkRight
    rw [hr]
    exact h.right
  · intro hl
    obtain ⟨h1, h2, h3⟩ := h.quiet hl
    refine ⟨ho.trans h1, List.length_eq_zero_iff.1 (Nat.le_zero.1 ?_), hf.trans h3⟩
    rw [h2] at hout
    exact hout

/-- A write of the Wake Unit alone. -/
theorem linkLaw_withWake (s : State) (w : WakeUnit) (h : s.LinkLaw) : (s.withWake w).LinkLaw :=
  h.congr rfl rfl rfl rfl rfl rfl

theorem linkLaw_withEng (s : State) (e : Engine) (h : s.LinkLaw) : (s.withEng e).LinkLaw :=
  h.congr rfl rfl rfl rfl rfl rfl

theorem linkLaw_rearmAtRest (s : State) (h : s.LinkLaw) : (rearmAtRest s).LinkLaw := by
  unfold rearmAtRest
  split
  · split
    · exact h
    · exact linkLaw_withWake _ _ h
  all_goals exact h

theorem linkLaw_clearSuppression (named : SourceSet) (s : State) (h : s.LinkLaw) : (clearSuppression named s).LinkLaw := by
  simp only [clearSuppression]
  split
  · exact h
  · unfold rearmAfterClear
    split
    · exact linkLaw_withWake _ _ (linkLaw_withWake _ _ h)
    all_goals exact linkLaw_rearmAtRest _ (linkLaw_withWake _ _ h)

theorem linkLaw_writeDomains (first : Nat) (configs : List DomainConfig) (holder : Domain) (s : State) (h : s.LinkLaw) :
    (writeDomains first configs holder s).LinkLaw := by
  have held : s.linkHeld = true → s.dom.linkUp = true := linkRight_linkUp h.right
  simp only [writeDomains]
  split
  · next hc => subst hc; exact h.congr rfl rfl rfl rfl rfl rfl
  · exact linkLaw_recomputeLink _ held h.quiet

theorem linkLaw_emptyTables (s : State) (h : s.LinkLaw) : (emptyTables s).LinkLaw :=
  have held : s.linkHeld = true → s.dom.linkUp = true := linkRight_linkUp h.right
  linkLaw_recomputeLink _ held h.quiet

theorem linkLaw_fallbackTables (s : State) (h : s.LinkLaw) : (fallbackTables s).LinkLaw :=
  (linkLaw_emptyTables s h).congr rfl rfl rfl rfl rfl rfl

theorem linkLaw_acceptReinit (s : State) (h : s.LinkLaw) : (acceptReinit s).LinkLaw :=
  linkLaw_emptyTables _ (h.congr rfl rfl rfl rfl rfl rfl)

theorem noteMainsLoss_linkHeld (s : State) : (noteMainsLoss s).linkHeld = false := by
  unfold noteMainsLoss
  split
  · simp [State.linkHeld, State.withLdr]
  · next h => simp [State.linkHeld, h]

theorem noteMainsLoss_quiet (s : State) (h : s.QuietWhenDown) : (noteMainsLoss s).QuietWhenDown := by
  unfold noteMainsLoss
  split <;> exact h

theorem linkLaw_mainsLoss (s : State) (h : s.LinkLaw) : (mainsLoss s).LinkLaw := by
  have hoff := linkLaw_allDomainsOff
    (driveSafe (clearHold ((clearWork (noteMainsLoss (writeAcok false s))).withEng
      { (clearWork (noteMainsLoss (writeAcok false s))).eng with forcingCause := none, rising := 0#12 })))
    (noteMainsLoss_linkHeld (writeAcok false s)) (noteMainsLoss_quiet (writeAcok false s) h.quiet)
  have harm : ∀ t : State, t.LinkLaw → (armAtMainsLoss t).LinkLaw := fun t ht => by
    unfold armAtMainsLoss
    split <;> exact linkLaw_withWake _ _ ht
  exact linkLaw_stable.recordReport _ _ (linkLaw_stable.startSleepCount _ (harm _ (linkLaw_stable.setArm _
    (linkLaw_stable.withPlatform _ _ hoff))))

/-- The end of a loading lets the link follow the controller domain again. -/
theorem linkLaw_unload (s : State) (h : s.QuietWhenDown) : (recomputeLink (s.withLoading none)).LinkLaw :=
  linkLaw_recomputeLink _ (fun hh => absurd hh (by simp [State.linkHeld, State.withLoading])) h

/-- Every command keeps the link law. -/
theorem linkLaw_commandStable : CommandStable State.LinkLaw where
  outside := linkLaw_outside
  reset _ _ := linkLaw_reset _ _
  edge := linkLaw_slowEdge
  status d x s hx hs := linkLaw_withStatus d x s hx hs
  endEvent p hp := linkLaw_stable.endEvent p hp
  latch _ s hs := linkLaw_withWake s _ hs
  window _ s hs := linkLaw_withWake s _ hs
  counts s hs := linkLaw_withWake s _ hs
  suppression := linkLaw_clearSuppression
  latchFrom := linkLaw_stable.latchFrom
  go f t c steps s _ _ hs := linkLaw_stable.acceptGo linkLaw_outside f t c steps s hs
  orderDone f s _ hs := linkLaw_stable.takeOrderDone linkLaw_outside f s hs
  completed m s _ hs := linkLaw_stable.memberCompleted m s hs
  failed m d st c s _ hs := linkLaw_stable.memberFailed m d st c s hs
  undoFailed u d c s _ hs := linkLaw_stable.undoFailed u d c s hs
  undoDone u s _ hs := linkLaw_stable.undoEnded u _ (linkLaw_stable.undoLineDone _ _ hs)
  awaiting l b s hs := linkLaw_stable.completeAwaiting l b s hs
  forcing := linkLaw_stable.forcingEvent
  restore left s _ _ hs := linkLaw_stable.acceptWake _ _ left s hs
  mainsLoss := linkLaw_mainsLoss
  store s _ _ hs := linkLaw_withEng s _ hs
  directory s _ _ _ _ hs := linkLaw_withEng s _ hs
  domains first configs holder s _ hs := linkLaw_writeDomains first configs holder s hs
  agents _ _ hs := hs.congr rfl rfl rfl rfl rfl rfl
  settings _ _ _ _ _ _ s _ _ hs := linkLaw_rearmAtRest _ (linkLaw_withWake s _ hs)
  reinit _ s _ _ hl hs := ⟨by unfold State.LinkRight; exact hl, fun hd => absurd (hl.symm.trans hd) Bool.noConfusion⟩
  phase l x s hl hs := hs.congr rfl rfl (by simp [State.linkHeld, State.withLoading, hl]) rfl rfl rfl
  acceptImage _ s _ _ hs := linkLaw_acceptReinit s hs
  fallback _ s _ hs := linkLaw_fallbackTables s hs
  endPower _ s _ _ hs := linkLaw_unload _ hs.quiet
  endReinit _ s _ _ hs := linkLaw_unload s hs.quiet

/-- Settles O59: the law of the link is one of the properties that every command keeps. -/
theorem everyStepKeepsTheLinkState : Obligations.EveryStepKeepsTheLinkState := fun s t hstep hr hq _ => by
  have ht := linkLaw_commandStable.step (fun _ _ h => h.congr rfl rfl rfl rfl rfl rfl) hstep ⟨hr, hq⟩
  exact ⟨ht.right, ht.quiet⟩

end Sys2Proof.Machine
end

section
/-! SUPPORT. The Wake Arm and the Armed set through the paths of the Engine (R98, R100, R181). The statement O57 is settled
here. -/

namespace Sys2Proof.Machine

/-! ## What the law of the arming reads -/

/-- Which event started a loading and whether it has met a mains loss. -/
def State.loadKind (s : State) : Option (Bool × Bool) := s.ldr.loading.map fun l => (l.byReinit, l.mainsLost)

/-- Two states agree on all that the law of the arming reads. -/
structure SameArming (s t : State) : Prop where
  platform   : t.eng.platform = s.eng.platform
  undo       : t.eng.undo = s.eng.undo
  arm        : t.wake.arm = s.wake.arm
  armed      : t.wake.armed = s.wake.armed
  enable     : t.wake.enable = s.wake.enable
  standby    : t.wake.maskStandby = s.wake.maskStandby
  hibernate  : t.wake.maskHibernate = s.wake.maskHibernate
  softoff    : t.wake.maskSoftoff = s.wake.maskSoftoff
  suppressed : t.wake.suppressed = s.wake.suppressed
  loading    : t.loadKind = s.loadKind

theorem SameArming.refl (s : State) : SameArming s s := ⟨rfl, rfl, rfl, rfl, rfl, rfl, rfl, rfl, rfl, rfl⟩

theorem SameArming.trans {s t u : State} (h : SameArming s t) (k : SameArming t u) : SameArming s u where
  platform := k.platform.trans h.platform
  undo := k.undo.trans h.undo
  arm := k.arm.trans h.arm
  armed := k.armed.trans h.armed
  enable := k.enable.trans h.enable
  standby := k.standby.trans h.standby
  hibernate := k.hibernate.trans h.hibernate
  softoff := k.softoff.trans h.softoff
  suppressed := k.suppressed.trans h.suppressed
  loading := k.loading.trans h.loading

theorem SameArming.of_blocks {s t : State} (he : t.eng = s.eng) (hw : t.wake = s.wake)
    (hl : t.ldr.loading = s.ldr.loading) : SameArming s t := by
  constructor <;> simp only [he, hw, State.loadKind, hl]

theorem SameArming.armedFor {s t : State} (h : SameArming s t) (f : Sleep) : t.armedFor f = s.armedFor f := by
  cases f <;> simp only [State.armedFor, State.mask, h.enable, h.standby, h.hibernate, h.softoff, h.suppressed]

theorem loadKind_none {s : State} : s.loadKind = none ↔ s.ldr.loading = none := by
  simp [State.loadKind]

theorem SameArming.unloaded {s t : State} (h : SameArming s t) (hl : s.ldr.loading = none) : t.ldr.loading = none :=
  loadKind_none.1 (h.loading.trans (loadKind_none.2 hl))

theorem State.ArmedRight.congr {s t : State} (h : s.ArmedRight) (k : SameArming s t) : t.ArmedRight where
  arm := by rw [k.arm, k.platform]; exact h.arm
  armed := by
    have ha := h.armed
    rw [k.platform]
    split <;> simp_all only [k.armed, k.armedFor]
  undo hu := by rw [k.platform]; exact h.undo (k.undo ▸ hu)
  loading l hl := by
    have hk := k.loading
    simp only [State.loadKind, hl, Option.map_some] at hk
    obtain ⟨l', hl', he⟩ := Option.map_eq_some_iff.1 hk.symm
    obtain ⟨h1, h2⟩ := Prod.ext_iff.1 he
    simp only at h1 h2
    rw [k.platform, k.armed, ← h1, ← h2]
    exact h.loading l' hl'

/-- With no loading, the law is the arm, the set and the place of an undo. -/
theorem armedRight_unloaded {s : State} (hl : s.ldr.loading = none) (harm : s.wake.arm = s.eng.platform.isRest)
    (hset : match s.eng.platform.armsFor with
      | some f => s.wake.armed &&& s.armedFor f = s.wake.armed
      | none => s.wake.armed = 0#16)
    (hu : s.eng.undo.isSome = true → ∃ t, s.eng.platform = .unwinding t) : s.ArmedRight :=
  ⟨harm, hset, hu, fun l h => by simp [hl] at h⟩

/-- With no loading and no undo, the law is the arm and the set. -/
theorem armedRight_of_undo_none {s : State} (hl : s.ldr.loading = none) (hu : s.eng.undo = none)
    (harm : s.wake.arm = s.eng.platform.isRest)
    (hset : match s.eng.platform.armsFor with
      | some f => s.wake.armed &&& s.armedFor f = s.wake.armed
      | none => s.wake.armed = 0#16) : s.ArmedRight :=
  armedRight_unloaded hl harm hset fun h => by simp [hu] at h

/-- A transition or a rest other than WORKING and SOFTOFF excludes a loading. -/
theorem State.ArmedRight.unloaded {s : State} (h : s.ArmedRight) (hw : s.eng.platform ≠ .working)
    (hs : s.eng.platform ≠ .rest .softoff) : s.ldr.loading = none := by
  cases hl : s.ldr.loading with
  | none => rfl
  | some l =>
    have := (h.loading l hl).2
    split at this <;> contradiction

/-- Outside UNWINDING no undo is in flight. -/
theorem State.ArmedRight.undo_none {s : State} (h : s.ArmedRight) (hu : ∀ t, s.eng.platform ≠ .unwinding t) :
    s.eng.undo = none := by
  cases hn : s.eng.undo with
  | none => rfl
  | some u =>
    obtain ⟨t, ht⟩ := h.undo (by simp [hn])
    exact absurd ht (hu t)

/-! ## The members of a group leave it alone -/

theorem sameArming_memberStable (s : State) : MemberStable (SameArming s) where
  queueUp f t h := h.trans (.of_blocks (queueUp_eng t f) (queueUp_wake t f) (by rw [queueUp_ldr]))
  queueDown f t h := h.trans (.of_blocks (queueDown_eng t f) (queueDown_wake t f) (by rw [queueDown_ldr]))
  discard _ _ h := h.trans (.of_blocks rfl rfl rfl)
  hold _ _ _ h := h.trans (.of_blocks rfl rfl rfl)
  domain d st t h := h.trans (.of_blocks (writeDomain_eng t d st) (writeDomain_wake t d st) (by rw [writeDomain_ldr]))
  cause _ _ _ h := h.trans (.of_blocks rfl rfl rfl)
  eng t e he h := by
    obtain ⟨_, hp, hu, _⟩ := he
    exact h.trans ⟨hp, hu, rfl, rfl, rfl, rfl, rfl, rfl, rfl, rfl⟩
  levels _ _ h := h.trans (.of_blocks rfl rfl rfl)
  ownTaken _ _ h := h.trans (.of_blocks rfl rfl rfl)

theorem runSteps_sameArming (l : List PlanStep) (left : Departed) (s : State) : SameArming s (runSteps l left s).state :=
  (sameArming_memberStable s).runSteps l left s (.refl s)

theorem groupTest_sameArming (p : State × Departed) : SameArming p.1 (groupTest p).state :=
  (sameArming_memberStable p.1).groupTest p (.refl p.1)

theorem writeDomain_sameArming (d : Domain) (st : DomState) (s : State) : SameArming s (writeDomain d st s) :=
  (sameArming_memberStable s).domain d st s (.refl s)

theorem queueUp_sameArming (f : Frame) (s : State) : SameArming s (queueUp f s) :=
  (sameArming_memberStable s).queueUp f s (.refl s)

theorem makeReport_sameArming (r : Report) (s : State) : SameArming s (makeReport r s) :=
  (sameArming_memberStable s).makeReport r s (.refl s)

theorem replaceRising_sameArming (x : DomainSet) (left : Departed) (s : State) : SameArming s (replaceRising x left s).1 :=
  (sameArming_memberStable s).replaceRising x left s (.refl s)

/-! ## FORCING and SOFTOFF -/

/-- SOFTOFF is reached armed, with the set computed for it (R81). -/
theorem armedRight_reachSoftoff (s : State) (hl : s.ldr.loading = none) (hu : s.eng.undo = none) :
    (reachSoftoff s).ArmedRight :=
  armedRight_of_undo_none hl hu rfl (BitVec.and_self (x := s.armedFor .softoff))

theorem armedRight_reportForced (s : State) (h : s.ArmedRight) : (reportForced s).ArmedRight :=
  (h.congr (makeReport_sameArming _ s)).congr ⟨rfl, rfl, rfl, rfl, rfl, rfl, rfl, rfl, rfl, rfl⟩

theorem armedRight_forcedOffEnd (s : State) (hl : s.ldr.loading = none) (hu : s.eng.undo = none) :
    (forcedOffEnd s).ArmedRight := armedRight_reportForced _ (armedRight_reachSoftoff s hl hu)

theorem armedRight_directSafeLoad (s : State) (hl : s.ldr.loading = none) (hu : s.eng.undo = none) :
    (directSafeLoad s).ArmedRight := by
  have k : SameArming s (allDomainsOff (driveSafe s)) :=
    (sameArming_memberStable s).allDomainsOff _ ((sameArming_memberStable s).levels s _ (.refl s))
  exact armedRight_reportForced _ (armedRight_reachSoftoff _ (k.unloaded hl) (k.undo.trans hu))

/-- FORCING with nothing armed. -/
theorem armedRight_of_forcing {s : State} (hp : s.eng.platform = .forcing) (harm : s.wake.arm = false)
    (hset : s.wake.armed = 0#16) (hl : s.ldr.loading = none) (hu : s.eng.undo = none) : s.ArmedRight :=
  armedRight_of_undo_none hl hu (by rw [hp]; exact harm) (by rw [hp]; exact hset)

theorem armedRight_settleForcing (r : Run) (h : r.state.ArmedRight) (hp : r.state.eng.platform = .forcing) :
    (settleForcing r).1.ArmedRight := by
  unfold settleForcing
  split
  · exact armedRight_forcedOffEnd _ (h.unloaded (by simp [hp]) (by simp [hp])) (h.undo_none (by simp [hp]))
  all_goals exact h

theorem armedRight_startForcedOff (s : State) (h : s.ArmedRight) (hp : s.eng.platform = .forcing) :
    (startForcedOff s).1.ArmedRight := by
  have hl := h.unloaded (by simp [hp]) (by simp [hp])
  have hu := h.undo_none (by simp [hp])
  unfold startForcedOff
  split
  · exact armedRight_directSafeLoad s hl hu
  · next steps _ =>
    have h1 : (s.withEng { s.eng with plan := some (planOf steps (s.dirEntry 6).commit 0#16 none) }).ArmedRight :=
      h.congr ⟨rfl, rfl, rfl, rfl, rfl, rfl, rfl, rfl, rfl, rfl⟩
    have k := runSteps_sameArming (planOf steps (s.dirEntry 6).commit 0#16 none).steps (.start s)
      (s.withEng { s.eng with plan := some (planOf steps (s.dirEntry 6).commit 0#16 none) })
    exact armedRight_settleForcing _ (h1.congr k) (k.platform.trans hp)

/-- What the cancellation at the start of FORCING leaves of the blocks that the law reads (R79). -/
theorem cancelRunning_undo (s : State) : (cancelRunning s).eng.undo = none ∧ (cancelRunning s).ldr = s.ldr := by
  have k : ∀ (l : List Domain) (t : State), (l.foldl (fun s d => writeDomain d .unknown s) t).eng = t.eng ∧
      (l.foldl (fun s d => writeDomain d .unknown s) t).ldr = t.ldr := fun l t =>
    ⟨foldl_field State.eng _ (fun s d => writeDomain_eng s d .unknown) l t,
      foldl_field State.ldr _ (fun s d => writeDomain_ldr s d .unknown) l t⟩
  obtain ⟨he, hl⟩ := k s.orderedDomains (clearWork s)
  exact ⟨by unfold cancelRunning; rw [he]; rfl, hl⟩

/-- FORCING begins from any state with no loading (R78 to R80). -/
theorem armedRight_beginForcing (c : ForcingCause) (left : Departed) (s : State) (hl : s.ldr.loading = none) :
    (beginForcing c left s).1.ArmedRight := by
  have hstop : (stopIfRest (s.withEng { s.eng with forcingCause := some c })).ldr = s.ldr := by
    unfold stopIfRest; split <;> rfl
  obtain ⟨hu, hldr⟩ := cancelRunning_undo (stopIfRest (s.withEng { s.eng with forcingCause := some c }))
  refine armedRight_startForcedOff _ (armedRight_of_forcing ?_ rfl rfl ?_ ?_) ?_
  · simp [disarm, State.withPermit, State.withRising, State.withPlatform]
  · simp [disarm, State.withPermit, State.withRising, State.withPlatform, hldr, hstop, hl]
  · simp [disarm, State.withPermit, State.withRising, State.withPlatform, hu]
  · simp [disarm, State.withPermit, State.withRising, State.withPlatform]

/-! ## Unwinding -/

/-- UNWINDING with nothing armed. -/
structure State.UnwindsUnarmed (s : State) : Prop where
  platform : ∃ t, s.eng.platform = .unwinding t
  arm      : s.wake.arm = false
  armed    : s.wake.armed = 0#16
  loading  : s.ldr.loading = none

theorem State.UnwindsUnarmed.armedRight {s : State} (h : s.UnwindsUnarmed) : s.ArmedRight := by
  obtain ⟨⟨t, hp⟩, harm, hset, hl⟩ := h
  exact armedRight_unloaded hl (by rw [hp]; exact harm) (by rw [hp]; exact hset) fun _ => ⟨t, hp⟩

theorem State.ArmedRight.unwindsUnarmed {s : State} (h : s.ArmedRight) {t : Sleep} (hp : s.eng.platform = .unwinding t) :
    s.UnwindsUnarmed := by
  have harm := h.arm
  have hset := h.armed
  rw [hp] at harm hset
  exact ⟨⟨t, hp⟩, harm, hset, h.unloaded (by simp [hp]) (by simp [hp])⟩

theorem State.UnwindsUnarmed.of_kind {s t : State} (h : s.UnwindsUnarmed) (hp : t.eng.platform = s.eng.platform)
    (hw : t.wake = s.wake) (hl : t.ldr = s.ldr) : t.UnwindsUnarmed :=
  ⟨hp ▸ h.platform, hw ▸ h.arm, hw ▸ h.armed, hl ▸ h.loading⟩

theorem unwindsUnarmed_memberStable : MemberStable State.UnwindsUnarmed where
  queueUp f s h := h.of_kind (by rw [queueUp_eng]) (queueUp_wake s f) (queueUp_ldr s f)
  queueDown f s h := h.of_kind (by rw [queueDown_eng]) (queueDown_wake s f) (queueDown_ldr s f)
  discard _ _ h := h.of_kind rfl rfl rfl
  hold _ _ _ h := h.of_kind rfl rfl rfl
  domain d st s h := h.of_kind (by rw [writeDomain_eng]) (writeDomain_wake s d st) (writeDomain_ldr s d st)
  cause _ _ _ h := h.of_kind rfl rfl rfl
  eng _ _ he h := h.of_kind he.2.1 rfl rfl
  levels _ _ h := h.of_kind rfl rfl rfl
  ownTaken _ _ h := h.of_kind rfl rfl rfl

/-- WORKING with nothing armed, no undo and no loading. -/
theorem armedRight_of_working {s : State} (hp : s.eng.platform = .working) (harm : s.wake.arm = false)
    (hset : s.wake.armed = 0#16) (hl : s.ldr.loading = none) (hu : s.eng.undo = none) : s.ArmedRight :=
  armedRight_of_undo_none hl hu (by rw [hp]; exact harm) (by rw [hp]; exact hset)

theorem armedRight_unwindEnd (left : Departed) (s : State) (h : s.UnwindsUnarmed) : (unwindEnd left s).1.ArmedRight := by
  have hw : (s.withEng { s.eng with
      platform := .working, undoStack := [], undo := none, unwind := none }).ArmedRight :=
    armedRight_of_working rfl h.arm h.armed h.loading rfl
  exact (hw.congr (replaceRising_sameArming 0#12 left _)).congr (makeReport_sameArming _ _)

theorem armedRight_unwindFrom (l : List UndoRecord) (left : Departed) (s : State) (h : s.UnwindsUnarmed) :
    (unwindFrom l left s).1.ArmedRight := by
  have hm := unwindsUnarmed_memberStable
  induction l generalizing left s with
  | nil => exact armedRight_unwindEnd left s h
  | cons r l ih =>
    have undo : ∀ (s : State) u, s.UnwindsUnarmed → (s.withUndo u l).UnwindsUnarmed := fun s u h => h.of_kind rfl rfl rfl
    have h0 := undo s none h
    simp only [unwindFrom]
    split
    · split
      · exact (hm.sendOrder _ _ _ _ _ (undo _ _ h0)).armedRight
      · exact ih _ _ (hm.undoLeavesRising _ _ _ _ (hm.cause _ _ _ (hm.domain _ _ _ h0)))
    · split
      · exact ih _ _ (hm.undoLeavesRising _ _ _ _ (hm.undoLineDone _ _ (hm.driveLine _ _ _ h0)))
      · exact (undo _ _ (hm.driveLine _ _ _ h0)).armedRight

/-- Unwinding begins in ENTERING, where the arm is not set (R72). -/
theorem armedRight_beginUnwinding (t : Sleep) (i : UnwindInfo) (left : Departed) (s : State)
    (harm : s.wake.arm = false) (hl : s.ldr.loading = none) : (beginUnwinding t i left s).1.ArmedRight :=
  armedRight_unwindFrom _ _ _ (unwindsUnarmed_memberStable.replaceRising _ _ _ ⟨⟨t, rfl⟩, harm, rfl, hl⟩)

theorem armedRight_undoEnded (u : UndoRun) (s : State) (h : s.UnwindsUnarmed) : (undoEnded u s).1.ArmedRight :=
  armedRight_unwindFrom _ _ _ (unwindsUnarmed_memberStable.undoLeavesRising _ _ _ _ (h.of_kind rfl rfl rfl))

/-! ## Wakes and the end of an entry -/

theorem armedRight_wakeEnd (f : Sleep) (left : Departed) (s : State) (h : s.ArmedRight)
    (hp : s.eng.platform = .waking f) : (wakeEnd f left s).1.ArmedRight := by
  have hl := h.unloaded (by simp [hp]) (by simp [hp])
  have harm := h.arm
  have hset := h.armed
  rw [hp] at harm hset
  simp only [wakeEnd]
  split
  · have hw : (s.withEng { s.eng with platform := .working, plan := none }).ArmedRight :=
      armedRight_of_working rfl harm hset hl (h.undo_none (by simp [hp]))
    have k := sameArming_memberStable (s.withEng { s.eng with platform := .working, plan := none })
    exact hw.congr (k.markUp _ ((k.sendResume _ (k.recordReport _ _ (k.replaceRising _ _ _ (.refl _)))).trans
      (.of_blocks rfl rfl rfl)))
  · exact armedRight_beginForcing _ _ s hl

theorem armedRight_settleWaking (f : Sleep) (r : Run) (h : r.state.ArmedRight) (hp : r.state.eng.platform = .waking f) :
    (settleWaking f r).1.ArmedRight := by
  have hl := h.unloaded (by simp [hp]) (by simp [hp])
  unfold settleWaking
  split
  · exact armedRight_wakeEnd f _ _ h hp
  · exact armedRight_beginForcing _ _ _ hl
  all_goals exact h

/-- A refused OFF-WAKE arms SOFTOFF again (R63). -/
theorem armedRight_refuseOffWake (i : Option Nat) (s : State) (hp : s.eng.platform = .rest .softoff)
    (hl : s.ldr.loading = none) (hu : s.eng.undo = none) : (refuseOffWake i s).ArmedRight := by
  have k := makeReport_sameArming ⟨some 5, .invalid, .badSequence, i, none, s.unknownSet⟩ s
  have hsoft : (refuseOffWake i s).eng.platform = .rest .softoff := k.platform.trans hp
  refine armedRight_of_undo_none (k.unloaded hl) (k.undo.trans hu) (by rw [hsoft]; rfl) ?_
  rw [hsoft]
  exact BitVec.and_self

/-- A wake is accepted in a sleep state with no loading (R102, R63). -/
theorem armedRight_acceptWake (f : Sleep) (reason : WakeReason) (left : Departed) (s : State) (h : s.ArmedRight)
    (hp : s.eng.platform = .rest f) (hl : s.ldr.loading = none) : (acceptWake f reason left s).1.ArmedRight := by
  have hu := h.undo_none (by simp [hp])
  simp only [acceptWake]
  split
  · refine armedRight_settleWaking f _ (.congr ?_ (runSteps_sameArming _ _ _)) (runSteps_sameArming _ _ _).platform
    exact armedRight_of_undo_none hl hu rfl rfl
  · split
    · exact armedRight_refuseOffWake _ _ hp hl hu
    all_goals exact armedRight_beginForcing _ _ _ hl

/-- A source is armed only with no loading. -/
theorem State.ArmedRight.unloaded_of_armed {s : State} (h : s.ArmedRight) (ha : s.wake.armed ≠ 0#16) :
    s.ldr.loading = none := by
  cases hl : s.ldr.loading with
  | none => rfl
  | some l => exact absurd (h.loading l hl).1 ha

theorem lowest_zero : lowest 0#16 = none := by decide

theorem armedRight_acceptLatched (f : Sleep) (left : Departed) (s : State) (h : s.ArmedRight)
    (hp : s.eng.platform = .rest f) : (acceptLatched f left s).1.ArmedRight := by
  unfold acceptLatched
  split
  · next x hx =>
    refine armedRight_acceptWake f _ left s h hp (h.unloaded_of_armed fun h0 => ?_)
    simp [h0, lowest_zero] at hx
  · exact h

theorem armedRight_entryEnd (t : Sleep) (left : Departed) (s : State) (h : s.ArmedRight)
    (hp : s.eng.platform = .entering t) : (entryEnd t left s).1.ArmedRight := by
  have hset := h.armed
  rw [hp] at hset
  have hu := h.undo_none (by simp [hp])
  have hl := h.unloaded (by simp [hp]) (by simp [hp])
  simp only [entryEnd]
  refine armedRight_acceptLatched t _ _ (.congr ?_ (makeReport_sameArming _ _)) (makeReport_sameArming _ _).platform
  exact armedRight_of_undo_none hl hu rfl hset

/-! ## The Engine's events -/

theorem armedRight_settle (r : Run) (h : r.state.ArmedRight) : (settle r).1.ArmedRight := by
  simp only [settle]
  split
  · exact h
  · split
    · next t hp => exact armedRight_entryEnd t _ _ h hp
    · next f hp => exact armedRight_wakeEnd f _ _ h hp
    · next hp =>
      exact armedRight_forcedOffEnd _ (h.unloaded (by simp [hp]) (by simp [hp])) (h.undo_none (by simp [hp]))
    all_goals exact h
  · split
    · next t hp =>
      exact armedRight_beginUnwinding t _ _ _ (h.arm.trans (by rw [hp]; rfl)) (h.unloaded (by simp [hp]) (by simp [hp]))
    all_goals exact h
  · split
    · next t hp =>
      exact armedRight_beginUnwinding t _ _ _ (h.arm.trans (by rw [hp]; rfl)) (h.unloaded (by simp [hp]) (by simp [hp]))
    · next f hp => exact armedRight_beginForcing _ _ _ (h.unloaded (by simp [hp]) (by simp [hp]))
    all_goals exact h

theorem armedRight_memberCompleted (m : Member) (s : State) (h : s.ArmedRight) : (memberCompleted m s).1.ArmedRight :=
  armedRight_settle _ ((h.congr ((sameArming_memberStable s).completeMember m _ s (.refl s))).congr
    (groupTest_sameArming _))

theorem armedRight_memberFailed (m : Member) (d : Domain) (st : DomState) (c : FaultCause) (s : State)
    (h : s.ArmedRight) : (memberFailed m d st c s).1.ArmedRight := by
  have k := (sameArming_memberStable s).failMember m d st c (.start s) s (.refl s)
  simp only [memberFailed]
  split
  · exact armedRight_settle _ (h.congr ((sameArming_memberStable s).abandonGroup _ _ k))
  · exact armedRight_settle _ ((h.congr k).congr (groupTest_sameArming _))

theorem armedRight_forcingEvent (c : ReportCause) (left : Departed) (s : State) (h : s.ArmedRight) :
    (forcingEvent c left s).1.ArmedRight := by
  unfold forcingEvent
  split
  · exact h
  · exact h
  · split
    · refine h.congr ?_
      unfold deferForcing
      split
      · next l hl => exact ⟨rfl, rfl, rfl, rfl, rfl, rfl, rfl, rfl, rfl, by simp [State.loadKind, State.withLdr, hl]⟩
      · exact .refl s
    · next hl => exact armedRight_beginForcing _ _ s (by simpa [State.isLoading] using hl)
  all_goals next hp => exact armedRight_beginForcing _ _ s (h.unloaded (by simp [hp]) (by simp [hp]))

/-! ## Latch events -/

theorem and_diff_setBit (a b c : SourceSet) (src : Source) (h : a &&& diff b c = a) :
    clearBit a src &&& diff b (setBit c src) = clearBit a src := by
  apply set_ext
  intro i
  have hi := congrArg (fun x : SourceSet => x.getLsbD i) h
  simp only [BitVec.getLsbD_and, diff_getLsbD, setBit_getLsbD, clearBit_getLsbD] at hi ⊢
  generalize a.getLsbD i = x, b.getLsbD i = y, c.getLsbD i = z, decide (i = src) = w at hi ⊢
  revert x y z w
  decide

theorem armedRight_suppress (src : Source) (s : State) (h : s.ArmedRight) : (suppress src s).ArmedRight := by
  refine State.ArmedRight.congr ?_ (queueUp_sameArming _ _)
  refine ⟨h.arm, ?_, h.undo, fun l hl => ?_⟩
  · have hset := h.armed
    show match s.eng.platform.armsFor with
      | some f => clearBit s.wake.armed src &&& diff (diff s.wake.enable (s.mask f)) (setBit s.wake.suppressed src) =
          clearBit s.wake.armed src
      | none => clearBit s.wake.armed src = 0#16
    split
    · next f hf =>
      rw [hf] at hset
      exact and_diff_setBit _ _ _ _ hset
    · next hf =>
      rw [hf] at hset
      simp [show s.wake.armed = 0#16 from hset, clearBit]
  · obtain ⟨h0, hp⟩ := h.loading l hl
    exact ⟨by simp [State.withWake, h0, clearBit], hp⟩

theorem armedRight_stormStep (src : Source) (s : State) (h : s.ArmedRight) : (stormStep src s).ArmedRight := by
  unfold stormStep
  split
  · split
    · exact armedRight_suppress src s h
    · exact h.congr ⟨rfl, rfl, rfl, rfl, rfl, rfl, rfl, rfl, rfl, rfl⟩
  · exact h

theorem latchBit_sameArming (src : Source) (s : State) : SameArming s (latchBit src s) := by
  simp only [latchBit]
  split
  · exact .refl s
  · refine SameArming.trans ?_ (queueUp_sameArming _ _)
    exact ⟨rfl, rfl, rfl, rfl, rfl, rfl, rfl, rfl, rfl, rfl⟩

theorem armedRight_armedLatch (src : Source) (left : Departed) (s : State) (h : s.ArmedRight) :
    (armedLatch src left s).1.ArmedRight := by
  unfold armedLatch
  split
  · next f hp =>
    split
    · exact armedRight_acceptLatched f left s h hp
    · exact h
  · split
    · exact h.congr ⟨rfl, rfl, rfl, rfl, rfl, rfl, rfl, rfl, rfl, rfl⟩
    · exact h
  all_goals exact h

theorem armedRight_latchFrom (src : Source) (p : State × Departed) (h : p.1.ArmedRight) : (latchFrom src p).1.ArmedRight := by
  have h2 := armedRight_stormStep src _ (h.congr (latchBit_sameArming src p.1))
  unfold latchFrom armStep
  split
  · exact armedRight_armedLatch src _ _ h2
  · exact h2

/-! ## The Monitor and the end of an event -/

theorem armedRight_latchRail (d : Domain) (p : State × Departed) (h : p.1.ArmedRight) : (latchRail d p).1.ArmedRight := by
  have h1 : (writeCause d .pgLost (writeFault d .latched p.1)).ArmedRight := h.congr (.of_blocks rfl rfl rfl)
  simp only [latchRail]
  split
  · exact h1.congr (queueUp_sameArming _ _)
  · exact armedRight_forcingEvent _ _ _ h1

theorem armedRight_monitorFrom (n : Nat) (p : State × Departed) (h : p.1.ArmedRight) : (monitorFrom n p).1.ArmedRight := by
  induction n generalizing p with
  | zero => exact h
  | succ n ih =>
    unfold monitorFrom
    split
    · exact ih _ (armedRight_latchRail _ p h)
    · exact h

theorem armedRight_endEvent (p : State × Departed) (h : p.1.ArmedRight) : (endEvent p).ArmedRight :=
  (armedRight_monitorFrom 12 p h).congr ((sameArming_memberStable _).reclassify _ _ (.refl _))

/-! ## GO and ORDER-DONE -/

theorem armedRight_relatch (c : SourceSet) (p : State × Departed) (h : p.1.ArmedRight) : (relatch c p).1.ArmedRight :=
  pair_foldl _ (fun p k h => by split <;> [exact armedRight_latchFrom _ _ h; exact h]) _ _ h

theorem checkGo_working {s : State} {payload : List Byte} {x : Sleep × Bool × List PlanStep}
    (h : checkGo s payload = .ok x) : s.eng.platform = .working := by
  unfold checkGo at h
  split at h
  · exact absurd h (by simp)
  · next hp => exact Decidable.of_not_not hp

theorem clearForGo_sameArming (c : Bool) (s : State) : SameArming s (clearForGo c s) := by
  unfold clearForGo
  split
  · exact .refl s
  · exact ⟨rfl, rfl, rfl, rfl, rfl, rfl, rfl, rfl, rfl, rfl⟩

/-- An acceptance computes the Armed set for the target (R42, R98). -/
theorem armedRight_enterSleep (t : Sleep) (c : Bool) (steps : List PlanStep) (s : State) (h : s.ArmedRight)
    (hp : s.eng.platform = .working) (hl : s.ldr.loading = none) : (enterSleep t c steps s).ArmedRight := by
  have k := clearForGo_sameArming c s
  have hu := k.undo.trans (h.undo_none (by simp [hp]))
  have harm := k.arm.trans h.arm
  rw [hp] at harm
  exact armedRight_of_undo_none (k.unloaded hl) hu harm BitVec.and_self

theorem Outside.sameArming {s t : State} (h : Outside s t) : SameArming s t := .of_blocks h.eng h.wake h.loading

theorem armedRight_acceptGo (f : Frame) (t : Sleep) (c : Bool) (steps : List PlanStep) (s : State) (h : s.ArmedRight)
    (hp : s.eng.platform = .working) (hl : s.ldr.loading = none) : (acceptGo f t c steps s).1.ArmedRight :=
  armedRight_relatch _ _ (armedRight_settle _ (((armedRight_enterSleep t c steps s h hp hl).congr
    (outside_answer _ _ _ _).sameArming).congr (runSteps_sameArming _ _ _)))

theorem armedRight_undoFailed (u : UndoRun) (d : Domain) (c : FaultCause) (s : State) (h : s.UnwindsUnarmed) :
    (undoFailed u d c s).1.ArmedRight :=
  have hm := unwindsUnarmed_memberStable
  armedRight_undoEnded u _ (hm.cause _ _ _ (hm.domain _ _ _ h))

theorem State.ArmedRight.unwinds_of_undo {s : State} (h : s.ArmedRight) {u : UndoRun} (hu : s.eng.undo = some u) :
    s.UnwindsUnarmed := by
  obtain ⟨t, hp⟩ := h.undo (by simp [hu])
  exact h.unwindsUnarmed hp

theorem armedRight_orderMatched (o : OrderEntry) (reached : OrdState) (s : State) (h : s.ArmedRight) :
    (orderMatched o reached s).1.ArmedRight := by
  have h1 : (removeOrder o s).ArmedRight := h.congr ⟨rfl, rfl, rfl, rfl, rfl, rfl, rfl, rfl, rfl, rfl⟩
  have hd := fun d st => h1.congr (writeDomain_sameArming d st (removeOrder o s))
  have hm := unwindsUnarmed_memberStable
  simp only [orderMatched]
  split
  · split
    · split
      · exact armedRight_memberCompleted _ _ (hd _ _)
      · exact armedRight_memberFailed _ _ _ _ _ h1
    · exact hd _ _
  · split
    · next u hu =>
      have hw := h1.unwinds_of_undo hu
      split
      · exact armedRight_undoEnded u _ (hm.domain _ _ _ hw)
      · exact armedRight_undoFailed u _ _ _ hw
    · exact hd _ _

theorem armedRight_takeOrderDone (f : Frame) (s : State) (h : s.ArmedRight) : (takeOrderDone f s).1.ArmedRight := by
  unfold takeOrderDone
  split
  · exact h.congr (outside_countDiscarded 1 s).sameArming
  · split
    · exact armedRight_orderMatched _ _ s h
    · unfold orderUnmatched
      split
      · split
        · simp only [lateDone]
          have hl := fun d st => (h.congr (writeDomain_sameArming d st s)).congr (outside_countLate _).sameArming
          split
          · exact (hl _ _).congr ((sameArming_memberStable _).leaveRising _ _ _ (.refl _))
          · exact hl _ _
        · exact h.congr (outside_countStray s).sameArming
      · exact h.congr (outside_countStray s).sameArming

theorem armedRight_completeAwaiting (l : PgLine) (b : Bool) (s : State) (h : s.ArmedRight) :
    (completeAwaiting l b s).1.ArmedRight := by
  unfold completeAwaiting
  split
  · exact h
  · refine armedRight_settle _ ((h.congr ?_).congr (groupTest_sameArming _))
    exact pair_foldl _ (fun p m hp => (sameArming_memberStable s).completeMember m p.2 p.1 hp) _ _ (.refl s)

/-! ## Tables, power and the loading -/

/-- With nothing armed, a change of the sources that may be armed changes nothing of the law. -/
theorem State.ArmedRight.of_armed_zero {s t : State} (h : s.ArmedRight)
    (hp : t.eng.platform = s.eng.platform) (hu : t.eng.undo = s.eng.undo) (harm : t.wake.arm = s.wake.arm)
    (hset : t.wake.armed = 0#16) (hl : t.loadKind = s.loadKind) : t.ArmedRight := by
  have h1 : (s.withWake { t.wake with arm := s.wake.arm }).ArmedRight :=
    ⟨h.arm, by split <;> simp [State.withWake, hset], h.undo, fun l hl => ⟨hset, (h.loading l hl).2⟩⟩
  exact h1.congr ⟨hp, hu, harm, rfl, rfl, rfl, rfl, rfl, rfl, hl⟩

/-- In a rest state the Armed set follows the settings at once, but for a loading, which holds it empty (R98). -/
theorem armedRight_rearmAtRest {s t : State} (h : s.ArmedRight) (he : t.eng = s.eng) (hl : t.ldr = s.ldr)
    (harm : t.wake.arm = s.wake.arm) (hset : t.wake.armed = s.wake.armed)
    (hn : s.TablesOpen ∨ s.eng.platform.armsFor = none) : (rearmAtRest t).ArmedRight := by
  have hkind : t.loadKind = s.loadKind := by simp [State.loadKind, hl]
  unfold rearmAtRest
  split
  · next f hp =>
    split
    · next hload =>
      obtain ⟨l, hs⟩ := Option.isSome_iff_exists.1 (hload : t.ldr.loading.isSome = true)
      have h0 := (h.loading l (hl ▸ hs)).1
      exact h.of_armed_zero (by rw [he]) (by rw [he]) harm (hset.trans h0) hkind
    · next hload =>
      have hrest : s.eng.platform = .rest f := he ▸ hp
      have hnone : t.ldr.loading = none := by simpa [State.isLoading] using hload
      refine armedRight_of_undo_none (s := computeArmed f t) hnone
        (show t.eng.undo = none by rw [he]; exact h.undo_none (by simp [hrest])) ?_ ?_
      · show t.wake.arm = t.eng.platform.isRest
        rw [harm, he]; exact h.arm
      · show match t.eng.platform.armsFor with
          | some g => t.armedFor f &&& t.armedFor g = t.armedFor f
          | none => t.armedFor f = 0#16
        rw [hp]
        exact BitVec.and_self
  all_goals
    next hp =>
    rw [he] at hp
    have h0 : s.wake.armed = 0#16 := by
      have ha := h.armed
      obtain ht | ht := hn
      · obtain ht | ht := ht
        · simp_all [Platform.transitional, Platform.armsFor]
        · obtain ⟨l, hs⟩ := Option.isSome_iff_exists.1 (ht : s.ldr.loading.isSome = true)
          exact (h.loading l hs).1
      · rw [ht] at ha; exact ha
    exact h.of_armed_zero (by rw [he]) (by rw [he]) harm (hset.trans h0) hkind

theorem armedRight_clearSuppression (named : SourceSet) (s : State) (h : s.ArmedRight) :
    (clearSuppression named s).ArmedRight := by
  simp only [clearSuppression]
  split
  · exact h
  · unfold rearmAfterClear
    split
    · next t hp =>
      have hp : s.eng.platform = .entering t := hp
      refine armedRight_of_undo_none (h.unloaded (by simp [hp]) (by simp [hp])) (h.undo_none (by simp [hp])) h.arm ?_
      show match s.eng.platform.armsFor with
        | some f => _ &&& _ = _
        | none => _ = _
      rw [hp]
      exact BitVec.and_self
    · next f hp => exact armedRight_rearmAtRest h rfl rfl rfl rfl (.inl (.inl (by rw [show s.eng.platform = .rest f from hp]; rfl)))
    all_goals
      next hp =>
      exact armedRight_rearmAtRest h rfl rfl rfl rfl (.inr (by rw [show s.eng.platform = _ from hp]; rfl))

theorem recomputeLink_sameArming (s : State) : SameArming s (recomputeLink s) :=
  .of_blocks (recomputeLink_eng s) (recomputeLink_wake s) (by rw [recomputeLink_ldr])

/-- Emptying the tables leaves alone what the law reads but for the sources that may be armed. -/
theorem emptyTables_arming (s : State) : (emptyTables s).eng.platform = s.eng.platform ∧
    (emptyTables s).eng.undo = s.eng.undo ∧ (emptyTables s).wake.arm = s.wake.arm ∧
    (emptyTables s).wake.armed = s.wake.armed ∧ (emptyTables s).loadKind = s.loadKind := by
  simp [emptyTables, State.loadKind]

theorem armedRight_emptyTables (s : State) (h : s.ArmedRight) (h0 : s.wake.armed = 0#16) : (emptyTables s).ArmedRight := by
  obtain ⟨hp, hu, harm, hset, hl⟩ := emptyTables_arming s
  exact h.of_armed_zero hp hu harm (hset.trans h0) hl

theorem armedRight_fallbackTables (s : State) (h : s.ArmedRight) (h0 : s.wake.armed = 0#16) :
    (fallbackTables s).ArmedRight :=
  (armedRight_emptyTables s h h0).congr ⟨rfl, rfl, rfl, rfl, rfl, rfl, rfl, rfl, rfl, rfl⟩

theorem armedRight_acceptReinit (s : State) (h : s.ArmedRight) (h0 : s.wake.armed = 0#16) : (acceptReinit s).ArmedRight :=
  armedRight_emptyTables _ (h.of_armed_zero rfl rfl rfl h0 rfl) h0

/-! ### Power -/

theorem allDomainsOff_eng (s : State) : (allDomainsOff s).eng = s.eng :=
  foldl_field State.eng _ (fun s d => writeDomain_eng s d .off) _ s

theorem allDomainsOff_ldr (s : State) : (allDomainsOff s).ldr = s.ldr :=
  foldl_field State.ldr _ (fun s d => writeDomain_ldr s d .off) _ s

/-- A mains loss met by a loading is noted with it. -/
theorem noteMainsLoss_loading (s : State) :
    (noteMainsLoss s).ldr.loading = s.ldr.loading.map fun l => { l with mainsLost := true } := by
  unfold noteMainsLoss
  split
  · next l hl => simp [State.withLdr, hl]
  · next hl => simp [hl]

theorem noteMainsLoss_eng (s : State) : (noteMainsLoss s).eng = s.eng := by unfold noteMainsLoss; split <;> rfl

theorem noteMainsLoss_wake (s : State) : (noteMainsLoss s).wake = s.wake := by unfold noteMainsLoss; split <;> rfl

theorem armAtMainsLoss_fields (s : State) : (armAtMainsLoss s).eng = s.eng ∧ (armAtMainsLoss s).ldr = s.ldr ∧
    (armAtMainsLoss s).wake = { s.wake with armed := if s.isLoading then 0#16 else s.armedFor .softoff } := by
  unfold armAtMainsLoss
  split <;> exact ⟨rfl, rfl, rfl⟩

/-- What a mains loss leaves in the blocks that the law reads (R85, R181). -/
theorem mainsLoss_arming (s : State) : (mainsLoss s).eng.platform = .rest .softoff ∧ (mainsLoss s).eng.undo = none ∧
    (mainsLoss s).wake.arm = true ∧
    (mainsLoss s).wake.armed = (if s.isLoading then 0#16 else (mainsLoss s).armedFor .softoff) ∧
    (mainsLoss s).ldr.loading = s.ldr.loading.map fun l => { l with mainsLost := true } := by
  have hload : (noteMainsLoss (writeAcok false s)).isLoading = s.isLoading := by
    simp only [State.isLoading, noteMainsLoss_loading, Option.isSome_map]
    rfl
  simp only [mainsLoss, recordReport, startSleepCount, withEng_eng, withEng_wake, withEng_ldr, withQual_eng, withQual_wake,
    withQual_ldr, armAtMainsLoss_fields]
  refine ⟨rfl, ?_, rfl, ?_, ?_⟩
  · simp [setArm, State.withPlatform, allDomainsOff_eng, driveSafe, clearHold, clearWork]
  · simp only [State.armedFor, State.mask, withEng_wake, withQual_wake, armAtMainsLoss_fields]
    simp only [State.isLoading, setArm, withWake_ldr, State.withPlatform, withEng_ldr, allDomainsOff_ldr]
    exact if_congr (Iff.of_eq (congrArg (· = true) hload)) rfl rfl
  · simp only [setArm, withWake_ldr, State.withPlatform, withEng_ldr, allDomainsOff_ldr]
    exact noteMainsLoss_loading _

theorem armedRight_mainsLoss (s : State) : (mainsLoss s).ArmedRight := by
  obtain ⟨hp, hu, harm, hset, hl⟩ := mainsLoss_arming s
  refine ⟨by rw [hp, harm]; rfl, ?_, fun h => by simp [hu] at h, fun l h => ?_⟩
  · rw [hp]
    show _ &&& _ = _
    rw [hset]
    split <;> simp [State.armedFor]
  · rw [hl] at h
    obtain ⟨l', hl', rfl⟩ := Option.map_eq_some_iff.1 h
    exact ⟨by rw [hset]; simp [State.isLoading, hl'], by rw [hp]; simp⟩

theorem armedRight_reset (q : List Instr) (n : Nat) : ((State.reset.withPending q).withDraws n).ArmedRight where
  arm := rfl
  armed := (by decide : 0#16 &&& diff (diff 1#16 0#16) 0#16 = 0#16)
  undo h := absurd h Bool.noConfusion
  loading l h := by
    obtain rfl : _ = l := Option.some.inj h
    exact ⟨rfl, rfl⟩

theorem armedRight_slowEdge (p : Pins) (s : State) (h : s.ArmedRight) : (slowEdge p s).ArmedRight where
  arm := h.arm
  armed := h.armed
  undo hu := h.undo (by simpa [slowEdge, tickEngine] using hu)
  loading := h.loading

/-! ### The end of a loading -/

/-- A loading holds the Armed set empty and the platform where it loads. -/
theorem State.ArmedRight.of_loadsAs {s : State} (h : s.ArmedRight) {l : Loading} (hl : s.LoadsAs l) :
    s.wake.armed = 0#16 ∧ s.eng.platform = if l.byReinit && !l.mainsLost then .working else .rest .softoff := by
  obtain ⟨l', hl', he⟩ := Option.map_eq_some_iff.1 hl
  obtain ⟨h1, h2⟩ := Prod.ext_iff.1 he
  simp only at h1 h2
  rw [← h1, ← h2]
  exact h.loading l' hl'

theorem armedRight_endPower (l : Loading) (s : State) (h : s.ArmedRight) (hl : s.LoadsAs l)
    (hk : (l.byReinit && !l.mainsLost) = false) :
    (recomputeLink ((startWindow (computeArmed .softoff s)).withLoading none)).ArmedRight := by
  obtain ⟨_, hp⟩ := h.of_loadsAs hl
  rw [if_neg (by simp [hk])] at hp
  refine State.ArmedRight.congr ?_ (recomputeLink_sameArming _)
  refine armedRight_of_undo_none rfl (h.undo_none (by simp [hp])) h.arm ?_
  show match s.eng.platform.armsFor with
    | some f => s.armedFor .softoff &&& s.armedFor f = s.armedFor .softoff
    | none => s.armedFor .softoff = 0#16
  rw [hp]
  exact BitVec.and_self

theorem armedRight_endReinit (l : Loading) (s : State) (h : s.ArmedRight) (hl : s.LoadsAs l)
    (hk : (l.byReinit && !l.mainsLost) = true) : (recomputeLink (s.withLoading none)).ArmedRight := by
  obtain ⟨h0, hp⟩ := h.of_loadsAs hl
  rw [if_pos hk] at hp
  have harm := h.arm
  rw [hp] at harm
  exact State.ArmedRight.congr (armedRight_of_working (s := s.withLoading none) hp harm h0 rfl
    (h.undo_none (by simp [hp]))) (recomputeLink_sameArming _)

theorem armedRight_startReinit (tag : Tag) (s : State) (h : s.ArmedRight) (hp : s.eng.platform = .working) :
    (startReinit tag s).ArmedRight where
  arm := h.arm
  armed := h.armed
  undo := h.undo
  loading l hl := by
    obtain rfl : _ = l := Option.some.inj hl
    have h0 := h.armed
    rw [hp] at h0
    exact ⟨h0, hp⟩

theorem armedRight_writeDomains (first : Nat) (configs : List DomainConfig) (holder : Domain) (s : State)
    (h : s.ArmedRight) : (writeDomains first configs holder s).ArmedRight := by
  have h1 : (s.withDom { s.dom with config := writeFrom s.dom.config first configs, controller := holder }).ArmedRight :=
    h.congr (.of_blocks rfl rfl rfl)
  simp only [writeDomains]
  split
  · exact h1
  · exact h1.congr (recomputeLink_sameArming _)

theorem isLoading_false {s : State} : s.isLoading = false ↔ s.ldr.loading = none := by simp [State.isLoading]

/-- A write of the Wake Unit that keeps the arm, the Armed set and the sources that may be armed, and any write of the
tables. -/
theorem armedRight_of_arming {s t : State} (h : s.ArmedRight) (hp : t.eng.platform = s.eng.platform)
    (hu : t.eng.undo = s.eng.undo) (harm : t.wake.arm = s.wake.arm) (hset : t.wake.armed = s.wake.armed)
    (hfor : t.armedFor = s.armedFor) (hl : t.ldr = s.ldr) : t.ArmedRight :=
  ⟨by rw [harm, hp]; exact h.arm, by have := h.armed; rw [hp, hset, hfor]; exact this, by rw [hu, hp]; exact h.undo,
    by rw [hl, hset, hp]; exact h.loading⟩

theorem armedRight_stormCount (x : Vector Nat 16) (s : State) (h : s.ArmedRight) :
    (s.withWake { s.wake with stormCount := x }).ArmedRight :=
  armedRight_of_arming h rfl rfl rfl rfl rfl rfl

/-- Every command keeps the law of the arming. -/
theorem armedRight_commandStable : CommandStable State.ArmedRight where
  outside _ _ ho hs := hs.congr ho.sameArming
  reset _ _ := armedRight_reset _ _
  edge := armedRight_slowEdge
  status _ _ _ _ hs := hs.congr (.of_blocks rfl rfl rfl)
  endEvent := armedRight_endEvent
  latch _ _ hs := armedRight_of_arming hs rfl rfl rfl rfl rfl rfl
  window _ _ hs := armedRight_of_arming hs rfl rfl rfl rfl rfl rfl
  counts s hs := armedRight_stormCount _ s hs
  suppression := armedRight_clearSuppression
  latchFrom := armedRight_latchFrom
  go f t c steps s hok hl hs := armedRight_acceptGo f t c steps s hs (checkGo_working hok) (isLoading_false.1 hl)
  orderDone f s _ hs := armedRight_takeOrderDone f s hs
  completed m s _ hs := armedRight_memberCompleted m s hs
  failed m d st c s _ hs := armedRight_memberFailed m d st c s hs
  undoFailed u d c s hu hs := armedRight_undoFailed u d c s (hs.unwinds_of_undo hu)
  undoDone u _ hu hs :=
    armedRight_undoEnded u _ (unwindsUnarmed_memberStable.undoLineDone _ _ (hs.unwinds_of_undo hu))
  awaiting := armedRight_completeAwaiting
  forcing := armedRight_forcingEvent
  restore left s hp hl hs := armedRight_acceptWake _ _ left s hs hp (isLoading_false.1 hl)
  mainsLoss s _ := armedRight_mainsLoss s
  store _ _ _ hs := armedRight_of_arming hs rfl rfl rfl rfl rfl rfl
  directory _ _ _ _ _ hs := armedRight_of_arming hs rfl rfl rfl rfl rfl rfl
  domains first configs holder s _ hs := armedRight_writeDomains first configs holder s hs
  agents _ _ hs := hs.congr (.of_blocks rfl rfl rfl)
  settings _ _ _ _ _ _ _ ho _ hs := armedRight_rearmAtRest hs rfl rfl rfl rfl (.inl ho)
  reinit tag s hp _ _ hs := armedRight_startReinit tag s hs hp
  phase l _ _ hl hs := hs.congr ⟨rfl, rfl, rfl, rfl, rfl, rfl, rfl, rfl, rfl, by
    simp [State.loadKind, State.withLoading, State.withLdr, hl]⟩
  acceptImage l s hl _ hs := armedRight_acceptReinit s hs (hs.loading l hl).1
  fallback l s hl hs := armedRight_fallbackTables s hs (hs.loading l hl).1
  endPower l s hl hk hs := armedRight_endPower l s hs hl hk
  endReinit l s hl hk hs := armedRight_endReinit l s hs hl hk

/-- Settles O57: the arming is one of the properties that every command keeps. -/
theorem everyStepKeepsTheArming : Obligations.EveryStepKeepsTheArming := fun _ _ hstep hs =>
  armedRight_commandStable.step (fun _ _ h => h.congr (.of_blocks rfl rfl rfl)) hstep hs

end Sys2Proof.Machine
end

section
/-! SUPPORT. The structure check of a sequence under its guards (R36, R44), and what the law of the Engine's tables reads. -/

namespace Sys2Proof.Machine

/-! ## The structure check -/

/-- A step breaks none of the five conditions of R36. -/
structure StepFits (s : State) (last : Bool) (g : GroupSeen) (q : PlanStep) : Prop where
  members : g.members < 4
  last    : last = true → q.step.join = false
  agent   : ∀ a, s.orderAgent q.step.action = some a → a ∉ g.agents
  line    : ∀ l, q.step.action.enLine = some l → l ∉ g.lines
  guard   : q.step.join = false → 1 ≤ g.members → q.step.guard = .always

theorem breaksStructure_false {s : State} {last : Bool} {g : GroupSeen} {q : PlanStep} :
    breaksStructure s last g q = false ↔ StepFits s last g q := by
  simp only [breaksStructure, Bool.or_eq_false_iff, decide_eq_false_iff_not, Bool.and_eq_false_iff, Nat.not_le,
    Option.any_eq_false, Bool.not_eq_false', Decidable.not_not, ne_eq]
  constructor
  · rintro ⟨⟨⟨⟨hm, hl⟩, ha⟩, hx⟩, hg⟩
    refine ⟨hm, fun h => hl.resolve_left (by simp [h]), ?_, ?_, fun hj h1 => ?_⟩
    · exact fun a h => by simpa using ha a h
    · exact fun l h => by simpa using hx l h
    · obtain (h | h) | h := hg
      · simp [hj] at h
      · omega
      · exact h
  · rintro ⟨hm, hl, ha, hx, hg⟩
    refine ⟨⟨⟨⟨hm, ?_⟩, fun a h => by simpa using ha a h⟩, fun l h => by simpa using hx l h⟩, ?_⟩
    · cases last
      · exact .inl rfl
      · exact .inr (hl rfl)
    · cases hj : q.step.join
      · by_cases h1 : 1 ≤ g.members
        · exact .inr (hg hj h1)
        · exact .inl (.inr (Nat.lt_of_not_le h1))
      · exact .inl (.inl rfl)

theorem structureFault_cons_none {s : State} {g : GroupSeen} {q : PlanStep} {rest : List PlanStep} :
    structureFault s g (q :: rest) = none ↔
      StepFits s rest.isEmpty g q ∧ structureFault s (g.next s q) rest = none := by
  rw [← breaksStructure_false]
  simp only [structureFault]
  cases breaksStructure s rest.isEmpty g q <;> simp

theorem GroupSeen.next_of_join {s : State} {g : GroupSeen} {q : PlanStep} (h : q.step.join = true) :
    g.next s q = ⟨g.members + 1, (s.orderAgent q.step.action).toList ++ g.agents, q.step.action.enLine.toList ++ g.lines⟩ :=
  if_pos h

theorem GroupSeen.next_of_not_join {s : State} {g : GroupSeen} {q : PlanStep} (h : q.step.join = false) :
    g.next s q = .start := if_neg (by simp [h])

/-- A group seen with some of the members left out. -/
structure GroupSeen.Within (x g : GroupSeen) : Prop where
  members : x.members ≤ g.members
  agents  : x.agents ⊆ g.agents
  lines   : x.lines ⊆ g.lines
  empty   : x.members = 0 → x = .start

theorem GroupSeen.start_within (g : GroupSeen) : GroupSeen.start.Within g :=
  ⟨Nat.zero_le _, List.nil_subset _, List.nil_subset _, fun _ => rfl⟩

theorem GroupSeen.Within.next {x g : GroupSeen} (h : x.Within g) (s : State) (q : PlanStep) :
    (x.next s q).Within (g.next s q) := by
  cases hj : q.step.join
  · rw [next_of_not_join hj, next_of_not_join hj]
    exact start_within _
  · rw [next_of_join hj, next_of_join hj]
    exact ⟨Nat.succ_le_succ h.members,
      List.append_subset.2 ⟨List.subset_append_left _ _, List.subset_append_of_subset_right _ h.agents⟩,
      List.append_subset.2 ⟨List.subset_append_left _ _, List.subset_append_of_subset_right _ h.lines⟩,
      fun h0 => absurd h0 (Nat.succ_ne_zero _)⟩

/-- A step left out leaves the group within the one seen with it. -/
theorem GroupSeen.Within.skip {x g : GroupSeen} (h : x.Within g) (s : State) (q : PlanStep)
    (hq : q.step.join = false → g.members = 0) : x.Within (g.next s q) := by
  cases hj : q.step.join
  · rw [h.empty (Nat.le_zero.1 (hq hj ▸ h.members))]
    exact start_within _
  · rw [next_of_join hj]
    exact ⟨Nat.le_succ_of_le h.members, List.subset_append_of_subset_right _ h.agents,
      List.subset_append_of_subset_right _ h.lines, h.empty⟩

variable {s : State} {p : PlanStep → Bool}

/-- The last member of a group of two or more is not guarded, so that a group begun ends in the Plan (R36, R44). -/
theorem filter_ne_nil_of_begun (hp : ∀ q : PlanStep, q.step.guard = .always → p q = true) {g : GroupSeen} {l : List PlanStep}
    (h : structureFault s g l = none) (hg : 1 ≤ g.members) (hl : l ≠ []) : l.filter p ≠ [] := by
  induction l generalizing g with
  | nil => exact absurd rfl hl
  | cons q rest ih =>
    obtain ⟨hfit, hrest⟩ := structureFault_cons_none.1 h
    cases hj : q.step.join
    · simp [hp q (hfit.guard hj hg)]
    · have hr : rest ≠ [] := by
        rintro rfl
        exact absurd (hfit.last rfl) (by simp [hj])
      rw [GroupSeen.next_of_join hj] at hrest
      rw [List.filter_cons]
      split
      · exact List.cons_ne_nil _ _
      · exact ih hrest (Nat.succ_le_succ (Nat.zero_le _)) hr

/-- The steps whose guards hold pass the structure check that all the steps pass (R36, R44). -/
theorem structureFault_filter (hp : ∀ q : PlanStep, q.step.guard = .always → p q = true) {x g : GroupSeen}
    {l : List PlanStep} (h : structureFault s g l = none) (hx : x.Within g) : structureFault s x (l.filter p) = none := by
  induction l generalizing x g with
  | nil => rfl
  | cons q rest ih =>
    obtain ⟨hfit, hrest⟩ := structureFault_cons_none.1 h
    rw [List.filter_cons]
    split
    · refine structureFault_cons_none.2 ⟨⟨Nat.lt_of_le_of_lt hx.members hfit.members, fun hlast => ?_,
        fun a ha hm => hfit.agent a ha (hx.agents hm), fun l hl hm => hfit.line l hl (hx.lines hm),
        fun hj h1 => hfit.guard hj (h1.trans hx.members)⟩, ih hrest (hx.next s q)⟩
      by_contra hj
      rw [Bool.not_eq_false] at hj
      have hr : rest ≠ [] := by
        rintro rfl
        exact absurd (hfit.last rfl) (by simp [hj])
      rw [GroupSeen.next_of_join hj] at hrest
      exact filter_ne_nil_of_begun hp hrest (Nat.succ_le_succ (Nat.zero_le _)) hr (List.isEmpty_iff.1 hlast)
    · next hq =>
      refine ih hrest (hx.skip s q fun hj => ?_)
      by_contra h0
      exact hq (hp q (hfit.guard hj (Nat.pos_of_ne_zero h0)))

/-- The check reads the agents of the ORDERs alone. -/
theorem structureFault_congr {s t : State} (h : t.orderAgent = s.orderAgent) (g : GroupSeen) (l : List PlanStep) :
    structureFault t g l = structureFault s g l := by
  induction l generalizing g with
  | nil => rfl
  | cons q rest ih =>
    have hb : breaksStructure t rest.isEmpty g q = breaksStructure s rest.isEmpty g q := by simp only [breaksStructure, h]
    have hn : g.next t q = g.next s q := by simp only [GroupSeen.next, h]
    simp only [structureFault, hb, hn, ih]

theorem State.rangeOf_apart (s : State) (e : DirEntry) :
    (s.rangeOf e).Pairwise fun x y => x.position ≠ y.position :=
  List.pairwise_map.2 (List.nodup_range.imp id)

theorem State.rangeOf_length (s : State) (e : DirEntry) : (s.rangeOf e).length = e.count := by
  simp [State.rangeOf]

/-- What a sequence that passes its checks gives: the steps of its range, with no fault. -/
theorem checkSequence_ok {s : State} {k : Nat} {steps : List PlanStep} (h : checkSequence s k = .ok steps) :
    steps = s.rangeOf (s.dirEntry k) ∧ structureFault s .start steps = none := by
  simp only [checkSequence] at h
  split at h
  · exact absurd h (by simp)
  · split at h
    · exact absurd h (by simp)
    · next hf =>
      obtain rfl := Except.ok.inj h
      exact ⟨rfl, hf⟩

/-! ## The Plan of a sequence -/

/-- The steps of a Plan at its start: within the structure check, on positions of their own, at most 32 (R22, R36). -/
structure StepsRight (s : State) (steps : List PlanStep) : Prop where
  structured : structureFault s .start steps = none
  apart      : steps.Pairwise fun x y => x.position ≠ y.position
  length     : steps.length ≤ 32

theorem stepsRight_planOf {k : Nat} {steps : List PlanStep} (hd : ∀ k : Fin 7, s.eng.directory[k].count ≤ 32)
    (h : checkSequence s k = .ok steps) (c : Nat) (x : SourceSet) (r : Option Source) :
    StepsRight s (planOf steps c x r).steps := by
  obtain ⟨rfl, hf⟩ := checkSequence_ok h
  refine ⟨structureFault_filter (fun q hq => by simp [hq, Guard.holds]) hf (GroupSeen.start_within _),
    (s.rangeOf_apart _).filter _, (List.length_filter_le _ _).trans ?_⟩
  rw [s.rangeOf_length]
  by_cases hk : k < 7
  · simpa [State.dirEntry, hk] using hd ⟨k, hk⟩
  · simp [State.dirEntry, hk, DirEntry.empty]

end Sys2Proof.Machine
end

section
/-! SUPPORT. The Engine's tables while a sequence runs (R36, R47, R50, R71): what the members of a group keep, and how
far a run of a Plan brings them. -/

namespace Sys2Proof.Machine

/-! ## What the law of the Engine's tables reads -/

/-- Two states agree on all that the law of the Engine's tables reads, an empty Rising set included. -/
structure SameTables (s t : State) : Prop where
  agents       : t.orderAgent = s.orderAgent
  directory    : t.eng.directory = s.eng.directory
  platform     : t.eng.platform = s.eng.platform
  plan         : t.eng.plan = s.eng.plan
  running      : t.eng.running = s.eng.running
  orders       : t.eng.orders = s.eng.orders
  undo         : t.eng.undo = s.eng.undo
  undoStack    : t.eng.undoStack = s.eng.undoStack
  abortPending : t.eng.abortPending = s.eng.abortPending
  forcingCause : t.eng.forcingCause = s.eng.forcingCause
  rising       : s.eng.rising = 0#12 → t.eng.rising = 0#12

theorem SameTables.refl (s : State) : SameTables s s := ⟨rfl, rfl, rfl, rfl, rfl, rfl, rfl, rfl, rfl, rfl, id⟩

theorem SameTables.trans {s t u : State} (h : SameTables s t) (k : SameTables t u) : SameTables s u where
  agents := k.agents.trans h.agents
  directory := k.directory.trans h.directory
  platform := k.platform.trans h.platform
  plan := k.plan.trans h.plan
  running := k.running.trans h.running
  orders := k.orders.trans h.orders
  undo := k.undo.trans h.undo
  undoStack := k.undoStack.trans h.undoStack
  abortPending := k.abortPending.trans h.abortPending
  forcingCause := k.forcingCause.trans h.forcingCause
  rising := k.rising ∘ h.rising

/-- The agents of ORDERs follow the configuration, which every operation of the Engine keeps. -/
theorem orderAgent_of_kept {s t : State} (h : t.kept = s.kept) : t.orderAgent = s.orderAgent := by
  have hc : t.dom.config = s.dom.config := (congrArg (fun x : State => x.dom.config) h :)
  funext a
  cases a <;> simp only [State.orderAgent, State.config, hc]

theorem SameTables.of_agents {s t : State} (ha : t.orderAgent = s.orderAgent) (he : t.eng = s.eng) : SameTables s t := by
  refine ⟨ha, ?_, ?_, ?_, ?_, ?_, ?_, ?_, ?_, ?_, ?_⟩ <;> simp only [he, imp_self]

theorem SameTables.of_eng {s t : State} (hk : t.kept = s.kept) (he : t.eng = s.eng) : SameTables s t :=
  .of_agents (orderAgent_of_kept hk) he

theorem Outside.sameTables {s t : State} (h : Outside s t) : SameTables s t := by
  refine .of_agents ?_ h.eng
  funext a
  cases a <;> simp only [State.orderAgent, State.config, h.dom]

theorem unstarted_of_plan {s t : State} (h : t.eng.plan = s.eng.plan) : t.unstarted = s.unstarted := by
  simp only [State.unstarted, h]

theorem structured_of_agents {s t : State} {g : GroupSeen} (hk : t.orderAgent = s.orderAgent) (hp : t.eng.plan = s.eng.plan)
    (h : structureFault s g s.unstarted = none) : structureFault t g t.unstarted = none := by
  rw [structureFault_congr hk, unstarted_of_plan hp]
  exact h

/-! ### The shared operations -/

theorem sameTables_queueUp (f : Frame) (s : State) : SameTables s (queueUp f s) := .of_eng (queueUp_kept f s) (queueUp_eng s f)

theorem sameTables_writeDomain (d : Domain) (st : DomState) (s : State) : SameTables s (writeDomain d st s) :=
  .of_eng (writeDomain_kept d st s) (writeDomain_eng s d st)

theorem sameTables_leaveRising (d : Domain) (left : Departed) (s : State) : SameTables s (leaveRising d left s).1 :=
  ⟨rfl, rfl, rfl, rfl, rfl, rfl, rfl, rfl, rfl, rfl, fun h => by
    show clearBit s.eng.rising d = 0#12
    simp [h, clearBit]⟩

theorem sameTables_endRising (a : Action) (left : Departed) (s : State) : SameTables s (endRising a left s).1 := by
  unfold endRising
  split
  · exact .refl s
  · split
    · exact sameTables_leaveRising _ left s
    · exact .refl s

theorem sameTables_undoLeavesRising (a : UndoAction) (stack : List UndoRecord) (left : Departed) (s : State) :
    SameTables s (undoLeavesRising a stack left s).1 := by
  unfold undoLeavesRising
  split
  · exact .refl s
  · split
    · exact sameTables_leaveRising _ left s
    · exact .refl s

theorem sameTables_undoLineDone (a : UndoAction) (s : State) : SameTables s (undoLineDone a s) := by
  unfold undoLineDone
  split
  · exact sameTables_writeDomain _ _ s
  all_goals exact .refl s

theorem sameTables_makeReport (r : Report) (s : State) : SameTables s (makeReport r s) :=
  SameTables.trans (t := recordReport r s) ⟨rfl, rfl, rfl, rfl, rfl, rfl, rfl, rfl, rfl, rfl, id⟩ (sameTables_queueUp _ _)

theorem sameTables_failed (d : Domain) (st : DomState) (c : FaultCause) (s : State) :
    SameTables s (writeCause d c (writeDomain d st s)) :=
  (sameTables_writeDomain d st s).trans (.of_eng rfl rfl)

/-! ## The members of a group -/

/-- The platform states in which a Plan runs. -/
def Platform.runsPlan : Platform → Bool
  | .entering _ | .waking _ | .forcing => true
  | .working | .rest _ | .unwinding _ => false

/-- The Engine's tables while a Plan runs, with the part g of the group seen before the steps that are left (R36, R47, R50,
R71). -/
structure State.GroupRight (s : State) (g : GroupSeen) : Prop where
  platform    : s.eng.platform.runsPlan = true
  undo        : s.eng.undo = none
  members     : s.eng.running.length ≤ 4
  positions   : s.eng.running.Pairwise fun x y => x.plan.position ≠ y.plan.position
  agents      : s.eng.running.Pairwise fun x y => ∀ a, s.orderAgent x.plan.step.action = some a →
    s.orderAgent y.plan.step.action ≠ some a
  structured  : structureFault s g s.unstarted = none
  unstarted   : s.unstarted.Pairwise fun x y => x.position ≠ y.position
  apart       : ∀ m ∈ s.eng.running, ∀ q ∈ s.unstarted, m.plan.position ≠ q.position
  ordersApart : s.eng.orders.Pairwise fun x y => x.agent ≠ y.agent
  ordersRun   : ∀ o ∈ s.eng.orders, ∃ m ∈ s.eng.running, o.position = some m.plan.position ∧
    s.orderAgent m.plan.step.action = some o.agent
  stack       : s.eng.undoStack.length ≤ 32
  stackRoom   : ∀ t, s.eng.platform = .entering t →
    s.eng.undoStack.length + s.eng.running.length + s.unstarted.length ≤ 32
  stackEmpty  : (∀ t, s.eng.platform ≠ .entering t) → s.eng.undoStack = []
  abort       : s.eng.abortPending.isSome = true → ∃ t, s.eng.platform = .entering t
  cause       : s.eng.forcingCause.isSome = true → s.eng.platform = .forcing
  rising      : s.eng.platform = .forcing → s.eng.rising = 0#12
  directory   : ∀ k : Fin 7, s.eng.directory[k].count ≤ 32

variable {s t : State} {g : GroupSeen}

theorem State.GroupRight.congr (h : s.GroupRight g) (k : SameTables s t) : t.GroupRight g := by
  have ha := k.agents
  have hu := unstarted_of_plan k.plan
  constructor <;> simp only [k.platform, k.undo, k.running, k.orders, k.undoStack, k.abortPending, k.forcingCause, ha, hu,
    k.directory, structureFault_congr ha]
  exacts [h.platform, h.undo, h.members, h.positions, h.agents, h.structured, h.unstarted, h.apart, h.ordersApart,
    h.ordersRun, h.stack, h.stackRoom, h.stackEmpty, h.abort, h.cause, fun hp => k.rising (h.rising hp), h.directory]

/-- No two orders are to one agent and each is to the agent of a running member, so that there are no more than members. -/
theorem State.GroupRight.orders_le (h : s.GroupRight g) : s.eng.orders.length ≤ s.eng.running.length := by
  have hn : (s.eng.orders.map OrderEntry.agent).Nodup := List.pairwise_map.2 h.ordersApart
  have hsub : s.eng.orders.map OrderEntry.agent ⊆
      s.eng.running.filterMap fun m => s.orderAgent m.plan.step.action := fun a ha => by
    obtain ⟨o, ho, rfl⟩ := List.mem_map.1 ha
    obtain ⟨m, hm, _, hagent⟩ := h.ordersRun o ho
    exact List.mem_filterMap.2 ⟨m, hm, hagent⟩
  simpa using (hn.subperm hsub).length_le.trans (List.length_filterMap_le _ _)

/-- With the steps left to start at the beginning of a group, the tables are as the law says. -/
theorem State.GroupRight.engineRight (h : s.GroupRight .start) : s.EngineRight where
  atRest hp := by
    have := h.platform
    cases hs : s.eng.platform <;> simp_all [Platform.transitional, Platform.runsPlan]
  members := h.members
  positions := h.positions
  agents := h.agents
  structured := h.structured
  unstarted := h.unstarted
  apart := h.apart
  orders := h.orders_le.trans h.members
  ordersApart := h.ordersApart
  ordersRun o ho p hp := by
    obtain ⟨m, hm, hpos, hagent⟩ := h.ordersRun o ho
    exact ⟨m, hm, Option.some.inj (hpos.symm.trans hp), hagent⟩
  ordersUndo o ho hp := by
    obtain ⟨m, _, hpos, _⟩ := h.ordersRun o ho
    exact absurd (hpos.symm.trans hp) (by simp)
  undoing t ht := absurd h.platform (by simp [ht, Platform.runsPlan])
  stack := h.stack
  stackRoom := h.stackRoom
  stackEmpty he _ := h.stackEmpty he
  abort := h.abort
  cause := h.cause
  forcingRising := h.rising
  directory := h.directory

/-- While a Plan runs, the law of the tables is that of the group. -/
theorem State.EngineRight.groupRight (h : s.EngineRight) (hp : s.eng.platform.runsPlan = true) (hu : s.eng.undo = none) :
    s.GroupRight .start where
  platform := hp
  undo := hu
  members := h.members
  positions := h.positions
  agents := h.agents
  structured := h.structured
  unstarted := h.unstarted
  apart := h.apart
  ordersApart := h.ordersApart
  ordersRun o ho := by
    cases hpos : o.position with
    | none => exact absurd (h.ordersUndo o ho hpos).1 (by simp [hu])
    | some p =>
      obtain ⟨m, hm, rfl, hagent⟩ := h.ordersRun o ho p hpos
      exact ⟨m, hm, rfl, hagent⟩
  stack := h.stack
  stackRoom := h.stackRoom
  stackEmpty he := h.stackEmpty he fun t ht => by simp [ht, Platform.runsPlan] at hp
  abort := h.abort
  cause := h.cause
  rising := h.forcingRising
  directory := h.directory

/-! ### The end of a member -/

/-- A member leaves, and with it its order. -/
theorem State.GroupRight.dropMember (h : s.GroupRight g) (m : Member) : (dropMember m s).GroupRight g where
  platform := h.platform
  undo := h.undo
  members := (List.length_filter_le _ _).trans h.members
  positions := h.positions.filter _
  agents := h.agents.filter _
  structured := structured_of_agents (s := s) rfl rfl h.structured
  unstarted := h.unstarted
  apart x hx := h.apart x (List.mem_of_mem_filter hx)
  ordersApart := h.ordersApart.filter _
  ordersRun o ho := by
    obtain ⟨ho, hne⟩ := List.mem_filter.1 ho
    obtain ⟨x, hx, hpos, hagent⟩ := h.ordersRun o ho
    refine ⟨x, List.mem_filter.2 ⟨hx, ?_⟩, hpos, hagent⟩
    simpa [hpos] using hne
  stack := h.stack
  stackRoom t ht := by
    have := h.stackRoom t ht
    have hle : (Machine.dropMember m s).eng.running.length ≤ s.eng.running.length := List.length_filter_le _ _
    show s.eng.undoStack.length + (Machine.dropMember m s).eng.running.length + s.unstarted.length ≤ 32
    omega
  stackEmpty := h.stackEmpty
  abort := h.abort
  cause := h.cause
  rising := h.rising
  directory := h.directory

/-- A member that runs makes room for its undo record. -/
theorem dropMember_length_lt {m : Member} (hm : m ∈ s.eng.running) :
    (dropMember m s).eng.running.length < s.eng.running.length :=
  List.length_filter_lt_length_iff_exists.2 ⟨m, hm, by simp⟩

/-- The Undo Stack takes a record where the entry has room for it (R57, R71). -/
theorem State.GroupRight.pushed (h : s.GroupRight g) (r : UndoRecord) {t : Sleep} (ht : s.eng.platform = .entering t)
    (hroom : s.eng.undoStack.length + 1 + s.eng.running.length + s.unstarted.length ≤ 32) :
    (s.withEng { s.eng with undoStack := r :: s.eng.undoStack }).GroupRight g :=
  { h with
    structured := structured_of_agents (s := s) rfl rfl h.structured
    stack := by show s.eng.undoStack.length + 1 ≤ 32; omega
    stackRoom := fun _ _ => hroom
    stackEmpty := fun he => absurd ht (he t) }

theorem SameTables.dropMember (k : SameTables s t) (m : Member) : SameTables (dropMember m s) (dropMember m t) :=
  ⟨k.agents, k.directory, k.platform, k.plan, congrArg (List.filter _) k.running, congrArg (List.filter _) k.orders, k.undo, k.undoStack,
    k.abortPending, k.forcingCause, k.rising⟩

theorem SameTables.pushUndo (k : SameTables s t) (m : Member) : SameTables (pushUndo m s) (pushUndo m t) := by
  unfold Machine.pushUndo
  simp only [k.platform]
  (repeat' split)
  · next r _ _ =>
    exact ⟨k.agents, k.directory, rfl, k.plan, k.running, k.orders, k.undo, congrArg (List.cons r) k.undoStack, k.abortPending,
      k.forcingCause, k.rising⟩
  all_goals exact k

/-- What the completion of a member leaves, up to the writes that the law does not read. -/
theorem completeMember_tables (m : Member) (left : Departed) (s : State) :
    SameTables (dropMember m (pushUndo m s)) (completeMember m left s).1 := by
  unfold completeMember
  refine SameTables.trans ?_ (sameTables_endRising _ _ _)
  split
  · exact ((sameTables_writeDomain _ _ s).pushUndo m).dropMember m
  · exact .refl _

theorem failMember_tables (m : Member) (d : Domain) (st : DomState) (c : FaultCause) (left : Departed) (s : State) :
    SameTables (dropMember m s) (failMember m d st c left s).1 :=
  ((sameTables_failed d st c s).dropMember m).trans (sameTables_endRising _ _ _)

theorem abandonMember_tables (p : State × Departed) (m : Member) : SameTables (dropMember m p.1) (abandonMember p m).1 := by
  unfold abandonMember
  refine SameTables.trans ?_ (sameTables_endRising _ _ _)
  split
  · exact sameTables_writeDomain _ _ _
  all_goals exact .refl _

/-- A member that completes while it runs, or that has not begun to, keeps the law (R57). -/
theorem State.GroupRight.complete (h : s.GroupRight g) (m : Member) (left : Departed)
    (hroom : ∀ t, s.eng.platform = .entering t →
      s.eng.undoStack.length + 1 + (Machine.dropMember m s).eng.running.length + s.unstarted.length ≤ 32) :
    (completeMember m left s).1.GroupRight g := by
  refine State.GroupRight.congr ?_ (completeMember_tables m left s)
  have hd := h.dropMember m
  unfold Machine.pushUndo
  split
  · next r _ =>
    split
    · next he =>
      obtain ⟨t, ht⟩ : ∃ t, s.eng.platform = .entering t := by
        cases hp : s.eng.platform <;> simp_all [Platform.isEntering]
      exact hd.pushed r ht (hroom t ht)
    · exact hd
  · exact hd

theorem State.GroupRight.completeRunning (h : s.GroupRight g) {m : Member} (hm : m ∈ s.eng.running) (left : Departed) :
    (completeMember m left s).1.GroupRight g :=
  h.complete m left fun t ht => by
    have := h.stackRoom t ht
    have := dropMember_length_lt hm
    omega

theorem State.GroupRight.fail (h : s.GroupRight g) (m : Member) (d : Domain) (st : DomState) (c : FaultCause)
    (left : Departed) : (failMember m d st c left s).1.GroupRight g :=
  (h.dropMember m).congr (failMember_tables m d st c left s)

/-- The abandoned members leave one after the other (R59). -/
theorem State.GroupRight.abandonMembers (l : List Member) (p : State × Departed) (hp : p.1.GroupRight g) :
    (l.foldl abandonMember p).1.GroupRight g :=
  pair_foldl (P := fun s => s.GroupRight g) _ (fun p m hp => (hp.dropMember m).congr (abandonMember_tables p m)) l p hp

theorem abandonMembers_running (l : List Member) (p : State × Departed) :
    (l.foldl abandonMember p).1.eng.running =
      p.1.eng.running.filter fun x => l.all fun m => decide (x.plan.position ≠ m.plan.position) := by
  induction l generalizing p with
  | nil => simp
  | cons m l ih =>
    rw [List.foldl_cons, ih, (abandonMember_tables p m).running, Machine.dropMember, withEng_eng, List.filter_filter]
    exact List.filter_congr fun x _ => by simp [Bool.and_comm]

/-- Nothing of an abandoned group runs on. -/
theorem abandonGroup_running (left : Departed) (s : State) : (abandonGroup left s).1.eng.running = [] := by
  rw [abandonGroup, abandonMembers_running]
  refine List.filter_eq_nil_iff.2 fun x hx => ?_
  simpa using ⟨x, hx, rfl⟩

theorem State.GroupRight.abandonGroup (h : s.GroupRight g) (left : Departed) : (abandonGroup left s).1.GroupRight g :=
  State.GroupRight.abandonMembers s.eng.running (s, left) h

/-! ### The start of a member -/

/-- The running members are those of the group seen, as far as they run on. -/
structure State.Seen (s : State) (g : GroupSeen) : Prop where
  members : s.eng.running.length ≤ g.members
  agents  : ∀ m ∈ s.eng.running, ∀ a, s.orderAgent m.plan.step.action = some a → a ∈ g.agents

theorem State.seen_of_idle (h : s.eng.running = []) (g : GroupSeen) : s.Seen g :=
  ⟨by simp [h], by simp [h]⟩

theorem countStarted_unstarted {q : PlanStep} {rest : List PlanStep} (h : s.unstarted = q :: rest) :
    (countStarted s).unstarted = rest := by
  have ht := congrArg List.tail h
  cases hp : s.eng.plan with
  | none => simp [State.unstarted, hp] at h
  | some p => simpa [State.unstarted, countStarted, hp] using ht

/-- The step at the front has been counted as started, and nothing of it runs. -/
theorem State.GroupRight.countStarted {q : PlanStep} {rest : List PlanStep} (h : s.GroupRight g)
    (hu : s.unstarted = q :: rest) : (countStarted s).GroupRight (g.next s q) := by
  have hs := h.structured
  have hun := h.unstarted
  have hap := h.apart
  have hroom := h.stackRoom
  rw [hu] at hs hun hap hroom
  have hc := countStarted_unstarted hu
  refine { h with structured := ?_, unstarted := ?_, apart := ?_, stackRoom := ?_ }
  · rw [hc, structureFault_congr (orderAgent_of_kept (countStarted_kept s))]
    exact (structureFault_cons_none.1 hs).2
  · rw [hc]
    exact (List.pairwise_cons.1 hun).2
  · rw [hc]
    exact fun m hm x hx => hap m hm x (List.mem_cons_of_mem _ hx)
  · rw [hc]
    intro t ht
    have := hroom t ht
    rw [List.length_cons] at this
    show s.eng.undoStack.length + s.eng.running.length + rest.length ≤ 32
    omega

/-- A member of its own position and agent runs on, with the room for its undo record (R47, R36). -/
theorem State.GroupRight.addMember (h : s.GroupRight g) (m : Member) (h4 : s.eng.running.length < 4)
    (hpos : ∀ x ∈ s.eng.running, x.plan.position ≠ m.plan.position)
    (hapart : ∀ q ∈ s.unstarted, m.plan.position ≠ q.position)
    (hagent : ∀ x ∈ s.eng.running, ∀ a, s.orderAgent x.plan.step.action = some a →
      s.orderAgent m.plan.step.action ≠ some a)
    (hroom : ∀ t, s.eng.platform = .entering t →
      s.eng.undoStack.length + 1 + s.eng.running.length + s.unstarted.length ≤ 32) :
    (addMember m s).GroupRight g where
  platform := h.platform
  undo := h.undo
  members := by simpa [Machine.addMember, State.withRunning] using h4
  positions := List.pairwise_append.2 ⟨h.positions, List.pairwise_singleton _ _, by simpa using hpos⟩
  agents := List.pairwise_append.2 ⟨h.agents, List.pairwise_singleton _ _, fun x hx y hy => by
    obtain rfl := List.mem_singleton.1 hy
    exact hagent x hx⟩
  structured := structured_of_agents (s := s) rfl rfl h.structured
  unstarted := h.unstarted
  apart x hx := by
    obtain hx | hx := List.mem_append.1 hx
    · exact h.apart x hx
    · obtain rfl := List.mem_singleton.1 hx
      exact hapart
  ordersApart := h.ordersApart
  ordersRun o ho := by
    obtain ⟨x, hx, hp⟩ := h.ordersRun o ho
    exact ⟨x, List.mem_append_left _ hx, hp⟩
  stack := h.stack
  stackRoom t ht := by
    have := hroom t ht
    show s.eng.undoStack.length + (s.eng.running ++ [m]).length + s.unstarted.length ≤ 32
    simp only [List.length_append, List.length_singleton]
    omega
  stackEmpty := h.stackEmpty
  abort := h.abort
  cause := h.cause
  rising := h.rising
  directory := h.directory

/-- The order of a running member goes out to an agent with no other order (R50). -/
theorem State.GroupRight.sendOrder (h : s.GroupRight g) {m : Member} (hm : m ∈ s.eng.running) (d : Domain) (a : Addr)
    (target : OrdState) (ha : s.orderAgent m.plan.step.action = some a) (hfree : ∀ o ∈ s.eng.orders, o.agent ≠ a) :
    (sendOrder d a target (some m.plan.position) s).GroupRight g := by
  refine State.GroupRight.congr (s := s.withOrders (s.eng.orders ++ [⟨d, a, s.eng.tag, target, some m.plan.position⟩]))
    ?_ ?_
  · refine { h with structured := ?_, ordersApart := ?_, ordersRun := ?_ }
    · exact structured_of_agents (s := s) rfl rfl h.structured
    · exact List.pairwise_append.2 ⟨h.ordersApart, List.pairwise_singleton _ _, by simpa using hfree⟩
    · intro o ho
      obtain ho | ho := List.mem_append.1 ho
      · exact h.ordersRun o ho
      · obtain rfl := List.mem_singleton.1 ho
        exact ⟨m, hm, rfl, ha⟩
  · unfold Machine.sendOrder
    exact ⟨orderAgent_of_kept (queueDown_kept _ _), by simp [State.withOrders], by simp [State.withOrders], by simp [State.withOrders],
      by simp [State.withOrders], by simp [State.withOrders], by simp [State.withOrders], by simp [State.withOrders],
      by simp [State.withOrders], by simp [State.withOrders], by simp [State.withOrders]⟩

/-- What the start of a step leaves, of the tables that the law reads (R47). -/
structure StartedTo (s : State) (g : GroupSeen) (q : PlanStep) (rest : List PlanStep) (t : State) : Prop where
  right     : t.GroupRight (g.next s q)
  unstarted : t.unstarted = rest
  length    : t.eng.running.length ≤ s.eng.running.length + 1
  members   : ∀ x ∈ t.eng.running, x ∈ s.eng.running ∨ x.plan = q

theorem StartedTo.congr {q : PlanStep} {rest : List PlanStep} {u : State} (h : StartedTo s g q rest t)
    (k : SameTables t u) : StartedTo s g q rest u where
  right := h.right.congr k
  unstarted := (unstarted_of_plan k.plan).trans h.unstarted
  length := k.running ▸ h.length
  members := k.running ▸ h.members

/-- The members seen of the group take in the step that has been started. -/
theorem StartedTo.seen {q : PlanStep} {rest : List PlanStep} (h : StartedTo s g q rest t) (hs : s.Seen g)
    (hk : t.kept = s.kept) (hj : q.step.join = true) : t.Seen (g.next s q) := by
  rw [GroupSeen.next_of_join hj]
  refine ⟨h.length.trans (Nat.succ_le_succ hs.members), fun m hm a ha => ?_⟩
  rw [orderAgent_of_kept hk] at ha
  obtain hm | hm := h.members m hm
  · exact List.mem_append_right _ (hs.agents m hm a ha)
  · rw [hm] at ha
    exact List.mem_append_left _ (by simp [ha])

section
variable {q : PlanStep} {rest : List PlanStep} (h : s.GroupRight g) (hu : s.unstarted = q :: rest) (hs : s.Seen g)
  {m : Member} (hm : m.plan = q) (k : SameTables (countStarted s) t)
include h hu k

/-- The room that the step at the front has for its undo record. -/
theorem startRoom (x : Sleep) (hx : t.eng.platform = .entering x) :
    t.eng.undoStack.length + 1 + t.eng.running.length + t.unstarted.length ≤ 32 := by
  have hroom := h.stackRoom x (k.platform.symm.trans hx)
  rw [hu, List.length_cons] at hroom
  have h1 : t.unstarted = rest := (unstarted_of_plan k.plan).trans (countStarted_unstarted hu)
  rw [h1, k.undoStack, k.running]
  show s.eng.undoStack.length + 1 + s.eng.running.length + rest.length ≤ 32
  omega

theorem startedTo_fail (d : Domain) (st : DomState) (c : FaultCause) (left : Departed) :
    StartedTo s g q rest (failMember m d st c left t).1 := by
  refine StartedTo.congr ⟨((h.countStarted hu).congr k).dropMember m,
    (unstarted_of_plan k.plan).trans (countStarted_unstarted hu), ?_, ?_⟩ (failMember_tables m d st c left t)
  · exact (List.length_filter_le _ _).trans (k.running ▸ Nat.le_succ _)
  · exact fun x hx => .inl (k.running ▸ List.mem_of_mem_filter hx)

theorem startedTo_complete (left : Departed) : StartedTo s g q rest (completeMember m left t).1 := by
  have kc := completeMember_tables m left t
  have hrun : (completeMember m left t).1.eng.running = (dropMember m t).eng.running :=
    kc.running.trans (by unfold pushUndo; (repeat' split) <;> rfl)
  have hplan : (completeMember m left t).1.eng.plan = t.eng.plan :=
    kc.plan.trans (by unfold pushUndo; (repeat' split) <;> rfl)
  have hle : (dropMember m t).eng.running.length ≤ t.eng.running.length := List.length_filter_le _ _
  refine ⟨((h.countStarted hu).congr k).complete m left fun x hx => ?_,
    (unstarted_of_plan (hplan.trans k.plan)).trans (countStarted_unstarted hu), ?_, ?_⟩
  · have := startRoom h hu k x hx
    omega
  · rw [hrun]
    exact hle.trans (k.running ▸ Nat.le_succ _)
  · rw [hrun]
    exact fun x hx => .inl (k.running ▸ List.mem_of_mem_filter hx)

include hs hm in
theorem startedTo_run : StartedTo s g q rest (addMember m t) := by
  subst hm
  obtain ⟨hfit, _⟩ := structureFault_cons_none.1 (hu ▸ h.structured)
  have hun := h.unstarted
  rw [hu, List.pairwise_cons] at hun
  have h1 : t.unstarted = rest := (unstarted_of_plan k.plan).trans (countStarted_unstarted hu)
  have hr : t.eng.running = s.eng.running := k.running
  have ha : t.orderAgent = s.orderAgent := k.agents
  refine ⟨((h.countStarted hu).congr k).addMember m ?_ ?_ ?_ ?_ ?_, h1, ?_, ?_⟩
  · rw [hr]
    exact Nat.lt_of_le_of_lt hs.members hfit.members
  · rw [hr]
    exact fun x hx => h.apart x hx m.plan (by simp [hu])
  · rw [h1]
    exact hun.1
  · rw [hr, ha]
    exact fun x hx a hxa hma => hfit.agent a hma (hs.agents x hx a hxa)
  · exact startRoom h hu k
  · simp [addMember, State.withRunning, hr]
  · intro x hx
    obtain hx | hx := List.mem_append.1 hx
    · exact .inl (hr ▸ hx)
    · exact .inr (by rw [List.mem_singleton.1 hx])

include hs hm in
/-- The order of a started ORDER goes to an agent that no other order waits for. -/
theorem startedTo_order (d : Domain) (a : Addr) (target : OrdState) (ha : s.orderAgent q.step.action = some a) :
    StartedTo s g q rest (sendOrder d a target (some q.position) (addMember m t)) := by
  subst hm
  have h1 := startedTo_run h hu hs rfl k
  obtain ⟨hfit, _⟩ := structureFault_cons_none.1 (hu ▸ h.structured)
  have hagent : (addMember m t).orderAgent = s.orderAgent := k.agents
  refine ⟨h1.right.sendOrder (m := m) (by simp [addMember, State.withRunning]) d a target (by rw [hagent]; exact ha) ?_,
    (unstarted_of_plan (by simp [sendOrder])).trans h1.unstarted, ?_, ?_⟩
  · intro o ho heq
    obtain ⟨x, hx, _, hxa⟩ := h.ordersRun o (k.orders ▸ ho)
    exact hfit.agent a ha (hs.agents x hx a (heq ▸ hxa))
  · simpa [sendOrder] using h1.length
  · simpa [sendOrder] using h1.members

end

/-- The start of a step, in each of its outcomes (R47, R50, R55, R56). -/
theorem startedTo_startMember {q : PlanStep} {rest : List PlanStep} (h : s.GroupRight g) (hu : s.unstarted = q :: rest)
    (hs : s.Seen g) (left : Departed) : StartedTo s g q rest (startMember q left s).state := by
  have orRun : ∀ (b : Bool) (t : State), SameTables (countStarted s) t →
      StartedTo s g q rest (completeOrRun b (memberOf q s) left t).state := fun b t k => by
    unfold completeOrRun
    split
    · exact startedTo_complete h hu k left
    · exact startedTo_run h hu hs rfl k
  have k : SameTables (countStarted s) (countStarted s) := .refl _
  simp only [startMember]
  split
  · next d target r ha =>
    split
    · exact startedTo_fail h hu k d _ _ left
    · next agent hagent => exact startedTo_order h hu hs rfl k d agent target (by rw [ha]; exact hagent)
  · exact orRun _ _ (.of_eng rfl rfl)
  · split
    · exact startedTo_fail h hu k _ _ _ left
    · exact orRun _ _ k
  · exact orRun _ _ k

/-! ### The run of a Plan -/

theorem takesAbort_not_forcing {q : PlanStep} (h : s.takesAbort q = true) : s.eng.platform ≠ .forcing := by
  intro hp
  simp [State.takesAbort, hp] at h

theorem abandonGroup_platform (left : Departed) (s : State) : (abandonGroup left s).1.eng.platform = s.eng.platform :=
  ((sameArming_memberStable s).abandonGroup left s (.refl s)).platform

/-- What the run of a Plan leaves: a group, whole unless the run waits for it (R48, R59). -/
structure Run.Right (r : Run) : Prop where
  group     : ∃ g, r.state.GroupRight g ∧ (r.progress = .waiting → g = .start)
  ended     : r.progress ≠ .waiting → r.state.eng.running = []
  completed : r.progress = .completed → r.state.eng.abortPending = none
  groupEnd  : r.progress = .abortAtGroupEnd → r.state.eng.platform.isEntering = true
  aborted   : ∀ c i, r.progress = .aborted c i → r.state.eng.platform ≠ .forcing

theorem abortPending_memberStable (x : Option Source) : MemberStable (fun s => s.eng.abortPending = x) where
  queueUp f s h := by rw [queueUp_eng]; exact h
  queueDown f s h := by rw [queueDown_eng]; exact h
  discard _ _ h := h
  hold _ _ _ h := h
  domain d st s h := by rw [writeDomain_eng]; exact h
  cause _ _ _ h := h
  eng _ _ he h := (congrArg Prod.fst he.2.2.2.2).trans h
  levels _ _ h := h
  ownTaken _ _ h := h

theorem right_runSteps (l : List PlanStep) (left : Departed) (s : State) (g : GroupSeen) (h : s.GroupRight g)
    (hu : s.unstarted = l) (hs : s.Seen g) (hidle : l = [] → s.eng.running = []) (ha : s.eng.abortPending = none) :
    (runSteps l left s).Right := by
  induction l generalizing left s g with
  | nil => exact ⟨⟨g, h, by simp [runSteps]⟩, fun _ => hidle rfl, fun _ => ha, by simp [runSteps], by simp [runSteps]⟩
  | cons q rest ih =>
    have hx := startedTo_startMember h hu hs left
    have hax := (abortPending_memberStable none).startMember q left s ha
    obtain ⟨hfit, _⟩ := structureFault_cons_none.1 (hu ▸ h.structured)
    simp only [runSteps]
    split
    · next hfault =>
      have habort := (Option.filter_eq_some_iff.1 hfault).2
      refine ⟨⟨_, hx.right.abandonGroup _, by simp⟩, fun _ => abandonGroup_running _ _, by simp, by simp, fun _ _ _ => ?_⟩
      rw [abandonGroup_platform]
      exact takesAbort_not_forcing habort
    · split
      · next hj =>
        simp only [Bool.and_eq_true, Bool.not_eq_true', List.isEmpty_eq_false_iff] at hj
        exact ih _ _ _ hx.right hx.unstarted (hx.seen hs (startMember_kept q left s) hj.1) (fun h => absurd h hj.2) hax
      · next hj =>
        have hnj : q.step.join = false := by
          cases hq : q.step.join
          · rfl
          · exact absurd (hfit.last (by simpa [hq] using hj)) (by simp [hq])
        have hr := hx.right
        rw [GroupSeen.next_of_not_join hnj] at hr
        split
        · exact ⟨⟨_, hr, fun _ => rfl⟩, by simp, by simp, by simp, by simp⟩
        · next hrun =>
          have hrun : (startMember q left s).state.eng.running = [] := by simpa using hrun
          split
          · next he => exact ⟨⟨_, hr, by simp⟩, fun _ => hrun, by simp, fun _ => (Bool.and_eq_true_iff.1 he).1, by simp⟩
          · exact ih _ _ _ hr hx.unstarted (State.seen_of_idle hrun _) (fun _ => hrun) hax

/-- The group completion test at the end of a member (R48). -/
theorem right_groupTest (p : State × Departed) (h : p.1.GroupRight .start) : (groupTest p).Right := by
  unfold groupTest
  split
  · exact ⟨⟨_, h, fun _ => rfl⟩, by simp, by simp, by simp, by simp⟩
  · next hrun =>
    have hrun : p.1.eng.running = [] := by simpa using hrun
    split
    · next he => exact ⟨⟨_, h, by simp⟩, fun _ => hrun, by simp, fun _ => (Bool.and_eq_true_iff.1 he).1, by simp⟩
    · next ha =>
      refine right_runSteps _ _ _ _ h rfl (State.seen_of_idle hrun _) (fun _ => hrun) ?_
      by_contra hne
      rw [← ne_eq, Option.ne_none_iff_isSome] at hne
      obtain ⟨t, ht⟩ := h.abort hne
      exact ha (by simp [State.abortsAtGroupEnd, ht, Platform.isEntering, hne])

end Sys2Proof.Machine
end

section
/-! SUPPORT. The Engine's tables through the paths of the Engine (R40, R62, R72, R79): forcing, wakes, the end of an entry and
unwinding. -/

namespace Sys2Proof.Machine

variable {s t : State} {g : GroupSeen}

/-! ## Tables with nothing in them -/

/-- Nothing runs, is ordered or is to be undone. -/
structure State.Cleared (s : State) : Prop where
  running   : s.eng.running = []
  orders    : s.eng.orders = []
  undo      : s.eng.undo = none
  undoStack : s.eng.undoStack = []
  abort     : s.eng.abortPending = none
  directory : ∀ k : Fin 7, s.eng.directory[k].count ≤ 32

/-- The Engine is at rest (R2, R40). -/
structure State.Idle (s : State) : Prop extends s.Cleared where
  platform : s.eng.platform.transitional = false
  plan     : s.eng.plan = none
  rising   : s.eng.rising = 0#12
  cause    : s.eng.forcingCause = none

theorem State.Cleared.congr (h : s.Cleared) (k : SameTables s t) : t.Cleared where
  running := k.running.trans h.running
  orders := k.orders.trans h.orders
  undo := k.undo.trans h.undo
  undoStack := k.undoStack.trans h.undoStack
  abort := k.abortPending.trans h.abort
  directory := k.directory ▸ h.directory

theorem State.Idle.congr (h : s.Idle) (k : SameTables s t) : t.Idle where
  toCleared := h.toCleared.congr k
  platform := k.platform ▸ h.platform
  plan := k.plan.trans h.plan
  rising := k.rising h.rising
  cause := k.forcingCause.trans h.cause

/-- Any write outside the Engine's running state, and any of the directory within its range, keeps the Engine at rest. -/
theorem State.Idle.of_tables (h : s.Idle) (he : ∃ d x, t.eng = { s.eng with directory := d, store := x })
    (hd : ∀ k : Fin 7, t.eng.directory[k].count ≤ 32) : t.Idle := by
  obtain ⟨d, x, he⟩ := he
  constructor
  case toCleared => exact ⟨he ▸ h.running, he ▸ h.orders, he ▸ h.undo, he ▸ h.undoStack, he ▸ h.abort, hd⟩
  all_goals rw [he]
  exacts [h.platform, h.plan, h.rising, h.cause]

theorem State.Idle.engineRight (h : s.Idle) : s.EngineRight := by
  have hu : s.unstarted = [] := by simp [State.unstarted, h.plan]
  have hp := h.platform
  constructor
  case directory => exact h.directory
  all_goals simp only [h.running, h.orders, h.undo, h.undoStack, h.abort, h.plan, h.rising, h.cause, hu]
  exacts [fun _ => ⟨trivial, trivial, trivial, trivial⟩, by simp, .nil, .nil, rfl, .nil, by simp, by simp, .nil, by simp,
    by simp, fun _ _ => ⟨trivial, trivial⟩, by simp, by simp, fun _ _ => trivial, by simp, by simp, fun _ => trivial]

/-- At rest the tables are as the law and the arming say: nothing is in them. -/
theorem State.EngineRight.idle (h : s.EngineRight) (hu : s.eng.undo = none) (hp : s.eng.platform.transitional = false) :
    s.Idle := by
  obtain ⟨hplan, hrun, hord, hrise⟩ := h.atRest hp
  have hne : (∀ t, s.eng.platform ≠ .entering t) ∧ (∀ t, s.eng.platform ≠ .unwinding t) ∧ s.eng.platform ≠ .forcing := by
    refine ⟨fun t ht => ?_, fun t ht => ?_, fun ht => ?_⟩ <;> simp [ht, Platform.transitional] at hp
  obtain ⟨he, hw, hf⟩ := hne
  refine ⟨⟨hrun, hord, hu, h.stackEmpty he hw, ?_, h.directory⟩, hp, hplan, hrise, ?_⟩
  · by_contra hne
    obtain ⟨t, ht⟩ := h.abort (Option.isSome_iff_ne_none.2 hne)
    exact he t ht
  · by_contra hne
    exact hf (h.cause (Option.isSome_iff_ne_none.2 hne))

/-- The group that has ended, its Undo Stack aside. -/
theorem State.GroupRight.orders_nil (h : s.GroupRight g) (hrun : s.eng.running = []) : s.eng.orders = [] :=
  List.eq_nil_of_length_eq_zero (Nat.le_zero.1 (by simpa [hrun] using h.orders_le))

theorem State.GroupRight.abort_none (h : s.GroupRight g) (hp : ∀ t, s.eng.platform ≠ .entering t) :
    s.eng.abortPending = none := by
  by_contra hne
  obtain ⟨t, ht⟩ := h.abort (Option.isSome_iff_ne_none.2 hne)
  exact hp t ht

theorem State.GroupRight.cause_none (h : s.GroupRight g) (hp : s.eng.platform ≠ .forcing) : s.eng.forcingCause = none := by
  by_contra hne
  exact hp (h.cause (Option.isSome_iff_ne_none.2 hne))

theorem State.GroupRight.cleared (h : s.GroupRight g) (hrun : s.eng.running = [])
    (hp : ∀ t, s.eng.platform ≠ .entering t) : s.Cleared :=
  ⟨hrun, h.orders_nil hrun, h.undo, h.stackEmpty hp, h.abort_none hp, h.directory⟩

/-- A Plan begins with nothing else in the tables (R44). -/
theorem State.Cleared.begin {p : Plan} (h : s.Cleared) (hp : s.eng.platform.runsPlan = true) (hplan : s.eng.plan = some p)
    (h0 : p.started = 0) (hs : StepsRight s p.steps) (hc : s.eng.forcingCause.isSome = true → s.eng.platform = .forcing)
    (hr : s.eng.platform = .forcing → s.eng.rising = 0#12) (left : Departed) : (runSteps p.steps left s).Right := by
  have hu : s.unstarted = p.steps := by simp [State.unstarted, hplan, h0]
  refine right_runSteps p.steps left s .start ?_ hu (State.seen_of_idle h.running _) (fun _ => h.running) h.abort
  constructor
  case directory => exact h.directory
  case platform => exact hp
  case cause => exact hc
  case rising => exact hr
  all_goals simp only [h.running, h.orders, h.undo, h.undoStack, h.abort, hu]
  exacts [by simp, .nil, .nil, hs.structured, hs.apart, by simp, .nil, by simp, by simp,
    fun _ _ => by simpa using hs.length, fun _ => trivial, by simp]

theorem StepsRight.of_kept {steps : List PlanStep} (h : StepsRight s steps) (hk : t.kept = s.kept) : StepsRight t steps :=
  ⟨(structureFault_congr (orderAgent_of_kept hk) _ _).trans h.structured, h.apart, h.length⟩

/-! ## FORCING and SOFTOFF -/

/-- SOFTOFF is reached with nothing in the tables, and the forcing cause is absent again (R81). -/
theorem State.Cleared.forcedOff (h : s.Cleared) (hr : s.eng.rising = 0#12) : (reportForced (reachSoftoff s)).Idle := by
  have k := sameTables_makeReport (forcedReport (reachSoftoff s)) (reachSoftoff s)
  exact {
    running := k.running.trans h.running
    orders := k.orders.trans h.orders
    undo := k.undo.trans h.undo
    undoStack := k.undoStack.trans h.undoStack
    abort := k.abortPending.trans h.abort
    directory := fun i => (congrArg (fun v : Vector DirEntry 7 => v[i].count) (k.directory)).trans_le
      (h.directory i)
    platform := congrArg Platform.transitional k.platform
    plan := k.plan
    rising := k.rising hr
    cause := rfl }

theorem idle_forcedOffEnd (h : s.GroupRight g) (hrun : s.eng.running = []) (hp : s.eng.platform = .forcing) :
    (forcedOffEnd s).Idle :=
  (h.cleared hrun (by simp [hp])).forcedOff (h.rising hp)

theorem engineRight_settleForcing {r : Run} (h : r.Right) (hp : r.state.eng.platform = .forcing) :
    (settleForcing r).1.EngineRight := by
  obtain ⟨g, hg, hw⟩ := h.group
  unfold settleForcing
  split
  · next hc => exact (idle_forcedOffEnd hg (h.ended (by simp [hc])) hp).engineRight
  · next hc => exact (hw hc ▸ hg).engineRight
  · next hc => exact absurd (h.groupEnd hc) (by simp [hp, Platform.isEntering])
  · next c i hc => exact absurd hp (h.aborted c i hc)

theorem engineRight_startForcedOff (s : State) (h : s.Cleared) (hp : s.eng.platform = .forcing)
    (hr : s.eng.rising = 0#12) : (startForcedOff s).1.EngineRight := by
  unfold startForcedOff
  split
  · have k : SameTables s (allDomainsOff (driveSafe s)) := .of_eng (by simp) (allDomainsOff_eng _)
    exact ((h.congr k).forcedOff (k.rising hr)).engineRight
  · next steps hsteps =>
    have hs := stepsRight_planOf h.directory hsteps (s.dirEntry 6).commit 0#16 none
    have h1 : (s.withEng { s.eng with plan := some (planOf steps (s.dirEntry 6).commit 0#16 none) }).Cleared :=
      ⟨h.running, h.orders, h.undo, h.undoStack, h.abort, h.directory⟩
    refine engineRight_settleForcing (h1.begin (by rw [withEng_eng, hp]; rfl) rfl rfl (hs.of_kept rfl) (fun _ => hp)
      (fun _ => hr) _) ((runSteps_sameArming _ _ _).platform.trans hp)

theorem cancelRunning_eng (s : State) : (cancelRunning s).eng = (clearWork s).eng :=
  foldl_field State.eng _ (fun s d => writeDomain_eng s d .unknown) s.orderedDomains (clearWork s)

theorem stopIfRest_eng (s : State) : (stopIfRest s).eng = s.eng := by
  unfold stopIfRest
  split <;> rfl

/-- FORCING begins with nothing left in the tables, whatever ran (R79, R80). -/
theorem engineRight_beginForcing (c : ForcingCause) (left : Departed) (s : State)
    (hd : ∀ k : Fin 7, s.eng.directory[k].count ≤ 32) : (beginForcing c left s).1.EngineRight := by
  have he : ∀ x : State, (disarm ((dropAllDown left x).withPermit false)).eng = x.eng := fun x => by
    simp [disarm, State.withPermit]
  have hc : (cancelRunning (stopIfRest (s.withEng { s.eng with forcingCause := some c }))).eng =
      (clearWork (s.withEng { s.eng with forcingCause := some c })).eng := by
    rw [cancelRunning_eng]
    exact congrArg (fun e : Engine => { e with
      plan := none, running := [], orders := [], abortPending := none, undoStack := [], undo := none, unwind := none })
      (stopIfRest_eng _)
  unfold beginForcing
  refine engineRight_startForcedOff _ ?_ (by rw [he]; rfl) (by rw [he]; rfl)
  constructor <;> simp only [he, State.withRising, State.withPlatform, withEng_eng, hc]
  exacts [rfl, rfl, rfl, rfl, rfl, hd]

/-! ## Unwinding -/

/-- UNWINDING between two undos: nothing runs and nothing is ordered (R73). -/
structure State.Unwinding (s : State) : Prop where
  platform  : ∃ t, s.eng.platform = .unwinding t
  plan      : s.eng.plan = none
  running   : s.eng.running = []
  orders    : s.eng.orders = []
  abort     : s.eng.abortPending = none
  cause     : s.eng.forcingCause = none
  directory : ∀ k : Fin 7, s.eng.directory[k].count ≤ 32

theorem State.Unwinding.congr (h : s.Unwinding) (k : SameTables s t) : t.Unwinding where
  platform := k.platform ▸ h.platform
  plan := k.plan.trans h.plan
  running := k.running.trans h.running
  orders := k.orders.trans h.orders
  abort := k.abortPending.trans h.abort
  cause := k.forcingCause.trans h.cause
  directory := k.directory ▸ h.directory

theorem State.Unwinding.withUndo (h : s.Unwinding) (u : Option UndoRun) (l : List UndoRecord) :
    (s.withUndo u l).Unwinding := { h with }

/-- UNWINDING with an undo in flight, or between two: at most the undo's own order is in the table (R73). -/
theorem engineRight_unwinding (hp : ∃ t, s.eng.platform = .unwinding t) (hplan : s.eng.plan = none)
    (hrun : s.eng.running = []) (ha : s.eng.abortPending = none) (hc : s.eng.forcingCause = none)
    (hd : ∀ k : Fin 7, s.eng.directory[k].count ≤ 32) (hl : s.eng.undoStack.length ≤ 32)
    (ho : s.eng.orders = [] ∨ ∃ o, s.eng.orders = [o] ∧ o.position = none ∧ s.eng.undo.isSome = true) :
    s.EngineRight := by
  obtain ⟨t, hp⟩ := hp
  have hu : s.unstarted = [] := by simp [State.unstarted, hplan]
  constructor
  case directory => exact hd
  case stack => exact hl
  case orders => obtain h | ⟨o, h, _⟩ := ho <;> simp [h]
  case ordersApart => obtain h | ⟨o, h, _⟩ := ho <;> simp [h]
  case ordersRun =>
    obtain h | ⟨o, h, hpos, _⟩ := ho
    · simp [h]
    · simp [h, hpos]
  case ordersUndo =>
    obtain h | ⟨o, h, _, hundo⟩ := ho
    · simp [h]
    · simp [h, hundo]
  all_goals simp only [hp, hplan, hrun, ha, hc, hu]
  exacts [fun h => absurd h (by simp [Platform.transitional]), by simp, .nil, .nil, rfl, .nil, by simp,
    fun _ _ => ⟨trivial, trivial⟩, by simp, fun _ h => absurd rfl (h t), by simp, by simp, by simp]

theorem State.Unwinding.engineRight_undo (h : s.Unwinding) (u : Option UndoRun) {l : List UndoRecord} (hl : l.length ≤ 32) :
    (s.withUndo u l).EngineRight :=
  engineRight_unwinding h.platform h.plan h.running h.abort h.cause h.directory hl (.inl h.orders)

theorem State.Unwinding.engineRight_order (h : s.Unwinding) (u : UndoRun) {l : List UndoRecord} (hl : l.length ≤ 32)
    (d : Domain) (a : Addr) (target : OrdState) : (sendOrder d a target none (s.withUndo (some u) l)).EngineRight := by
  refine engineRight_unwinding ?_ ?_ ?_ ?_ ?_ ?_ ?_ (.inr ⟨⟨d, a, s.eng.tag, target, none⟩, ?_, rfl, ?_⟩) <;>
    simp only [sendOrder, queueDown_eng, withEng_eng, State.withUndo]
  exacts [h.platform, h.plan, h.running, h.abort, h.cause, h.directory, hl, by simp [h.orders], rfl]

theorem idle_unwindEnd (left : Departed) (s : State) (h : s.Unwinding) : (unwindEnd left s).1.Idle := by
  refine State.Idle.congr ?_ (sameTables_makeReport _ _)
  exact ⟨⟨h.running, h.orders, rfl, rfl, h.abort, h.directory⟩, rfl, h.plan, rfl, h.cause⟩

theorem engineRight_unwindFrom (l : List UndoRecord) (left : Departed) (s : State) (h : s.Unwinding) (hl : l.length ≤ 32) :
    (unwindFrom l left s).1.EngineRight := by
  induction l generalizing left s with
  | nil => exact (idle_unwindEnd left s h).engineRight
  | cons r l ih =>
    have hl : l.length ≤ 32 := Nat.le_of_succ_le hl
    have h0 := h.withUndo none l
    have leaves : ∀ (t : State) a, t.Unwinding → (undoLeavesRising a l left t).1.Unwinding := fun t a ht =>
      ht.congr (sameTables_undoLeavesRising a l left t)
    have drive : ∀ e b, (driveLine e b (s.withUndo none l)).Unwinding := fun e b => h0.congr (.of_eng rfl rfl)
    simp only [unwindFrom]
    split
    · split
      · exact h0.engineRight_order _ hl _ _ _
      · exact ih _ _ (leaves _ _ (h0.congr (sameTables_failed _ _ _ _))) hl
    · split
      · exact ih _ _ (leaves _ _ ((drive _ _).congr (sameTables_undoLineDone _ _))) hl
      · exact (drive _ _).engineRight_undo _ hl

/-- Unwinding begins where a group of an entry has ended (R72). -/
theorem engineRight_beginUnwinding (x : Sleep) (i : UnwindInfo) (left : Departed) (h : s.GroupRight g)
    (hrun : s.eng.running = []) (hp : s.eng.platform = .entering x) : (beginUnwinding x i left s).1.EngineRight := by
  refine engineRight_unwindFrom _ _ _ ?_ h.stack
  exact ⟨⟨x, rfl⟩, rfl, hrun, h.orders_nil hrun, rfl, h.cause_none (by simp [hp]), h.directory⟩

/-- The undo in flight ends in UNWINDING, where its order was the only one (R74, R76). -/
theorem engineRight_undoEnded (u : UndoRun) (s : State) (h : s.EngineRight) (hp : ∃ t, s.eng.platform = .unwinding t) :
    (undoEnded u s).1.EngineRight := by
  obtain ⟨t, ht⟩ := hp
  obtain ⟨hrun, hplan⟩ := h.undoing t ht
  refine engineRight_unwindFrom _ _ _ (State.Unwinding.congr ?_ (sameTables_undoLeavesRising _ _ _ _)) h.stack
  refine ⟨⟨t, ht⟩, hplan, hrun, ?_, ?_, ?_, h.directory⟩
  · refine List.filter_eq_nil_iff.2 fun o ho => ?_
    cases hpos : o.position with
    | none => simp
    | some p =>
      obtain ⟨m, hm, _⟩ := h.ordersRun o ho p hpos
      exact absurd hm (by simp [hrun])
  · by_contra hne
    obtain ⟨x, hx⟩ := h.abort (Option.isSome_iff_ne_none.2 hne)
    exact absurd (ht.symm.trans hx) (by simp)
  · by_contra hne
    exact absurd (ht.symm.trans (h.cause (Option.isSome_iff_ne_none.2 hne))) (by simp)

/-! ## Wakes and the end of an entry -/

theorem sameTables_recordReport (r : Report) (s : State) : SameTables s (recordReport r s) :=
  ⟨rfl, rfl, rfl, rfl, rfl, rfl, rfl, rfl, rfl, rfl, id⟩

theorem sameTables_sendResume (s : State) : SameTables s (sendResume s) := by
  unfold sendResume
  split
  · exact sameTables_queueUp _ s
  · exact .refl s

theorem sameTables_permitAtWake (s : State) : SameTables s (permitAtWake s) :=
  .of_eng (permitAtWake_kept s) (by simp [permitAtWake, State.withPermit])

theorem engineRight_wakeEnd (f : Sleep) (left : Departed) (h : s.GroupRight g) (hrun : s.eng.running = [])
    (hp : s.eng.platform = .waking f) : (wakeEnd f left s).1.EngineRight := by
  simp only [wakeEnd]
  split
  · have h1 : (replaceRising 0#12 left (s.withEng { s.eng with platform := .working, plan := none })).1.Idle := by
      obtain ⟨h1, h2, h3, h4, h5, h6⟩ := h.cleared hrun (by simp [hp])
      exact ⟨⟨h1, h2, h3, h4, h5, h6⟩, rfl, rfl, rfl, h.cause_none (by simp [hp])⟩
    exact (h1.congr ((sameTables_recordReport _ _).trans ((sameTables_sendResume _).trans
      (sameTables_permitAtWake _)))).engineRight
  · exact engineRight_beginForcing _ _ s h.directory

theorem engineRight_settleWaking (f : Sleep) {r : Run} (h : r.Right) (hp : r.state.eng.platform = .waking f) :
    (settleWaking f r).1.EngineRight := by
  obtain ⟨g, hg, hw⟩ := h.group
  unfold settleWaking
  split
  · next hc => exact engineRight_wakeEnd f _ hg (h.ended (by simp [hc])) hp
  · exact engineRight_beginForcing _ _ _ hg.directory
  · next hc => exact (hw hc ▸ hg).engineRight
  · next hc => exact absurd (h.groupEnd hc) (by simp [hp, Platform.isEntering])

theorem idle_refuseOffWake (i : Option Nat) (s : State) (h : s.Idle) : (refuseOffWake i s).Idle :=
  (h.congr (sameTables_makeReport _ s)).congr (.of_eng rfl rfl)

/-- A wake is accepted at rest (R102, R63). -/
theorem engineRight_acceptWake (f : Sleep) (reason : WakeReason) (left : Departed) (s : State) (h : s.Idle) :
    (acceptWake f reason left s).1.EngineRight := by
  have h1 : (stopSleepCount (disarm (captureContext f reason s))).Idle := h.congr (.of_eng rfl rfl)
  simp only [acceptWake]
  split
  · next steps hsteps =>
    have hs := stepsRight_planOf h1.directory hsteps (State.dirEntry (stopSleepCount (disarm (captureContext f reason s))) (3 + f.code)).commit s.wake.armed reason.asSource
    refine engineRight_settleWaking f (State.Cleared.begin ?_ ?_ ?_ ?_ ?_ ?_ ?_ left)
      (runSteps_sameArming _ _ _).platform
    rotate_left
    · rfl
    · rfl
    · rfl
    · exact hs.of_kept rfl
    · exact fun hc => absurd hc (by simp [stopSleepCount, disarm, captureContext, h.cause])
    · simp
    · exact ⟨h.running, h.orders, h.undo, h.undoStack, h.abort, h.directory⟩
  · split
    · exact (idle_refuseOffWake _ _ h1).engineRight
    all_goals exact engineRight_beginForcing _ _ _ h.directory

theorem engineRight_acceptLatched (f : Sleep) (left : Departed) (s : State) (h : s.Idle) :
    (acceptLatched f left s).1.EngineRight := by
  unfold acceptLatched
  split
  · exact engineRight_acceptWake f _ left s h
  · exact h.engineRight

/-- An entry ends with nothing left in the tables (R62). -/
theorem engineRight_entryEnd (x : Sleep) (left : Departed) (h : s.GroupRight g) (hrun : s.eng.running = [])
    (hp : s.eng.platform = .entering x) (ha : s.eng.abortPending = none) : (entryEnd x left s).1.EngineRight := by
  simp only [entryEnd]
  refine engineRight_acceptLatched x _ _ (State.Idle.congr ?_ (sameTables_makeReport _ _))
  exact ⟨⟨hrun, h.orders_nil hrun, h.undo, rfl, ha, h.directory⟩, rfl, rfl, rfl, h.cause_none (by simp [hp])⟩

/-! ## The Engine's events -/

theorem engineRight_settle {r : Run} (h : r.Right) : (settle r).1.EngineRight := by
  obtain ⟨g, hg, hw⟩ := h.group
  have hrun := hg.platform
  simp only [settle]
  split
  · next hc => exact (hw hc ▸ hg).engineRight
  · next hc =>
    have he := h.ended (by simp [hc])
    split
    · next x hp => exact engineRight_entryEnd x _ hg he hp (h.completed hc)
    · next f hp => exact engineRight_wakeEnd f _ hg he hp
    · next hp => exact (idle_forcedOffEnd hg he hp).engineRight
    all_goals next hp => exact absurd hrun (by simp [hp, Platform.runsPlan])
  · next hc =>
    have hen := h.groupEnd hc
    split
    · next x hp => exact engineRight_beginUnwinding x _ _ hg (h.ended (by simp [hc])) hp
    all_goals next hp => exact absurd hen (by simp [hp, Platform.isEntering])
  · next c i hc =>
    have hf := h.aborted c i hc
    split
    · next x hp => exact engineRight_beginUnwinding x _ _ hg (h.ended (by simp [hc])) hp
    · next f hp => exact engineRight_beginForcing _ _ _ hg.directory
    · next hp => exact absurd hrun (by simp [hp, Platform.runsPlan])
    · next hp => exact absurd hrun (by simp [hp, Platform.runsPlan])
    · next hp => exact absurd hrun (by simp [hp, Platform.runsPlan])
    · next hp => exact absurd hp hf

/-- A member runs in ENTERING, WAKING and FORCING alone. -/
theorem State.EngineRight.group_of_member (h : s.EngineRight) (ha : s.ArmedRight) {m : Member} (hm : m ∈ s.eng.running) :
    s.GroupRight .start := by
  have hp : s.eng.platform.runsPlan = true := by
    cases hp : s.eng.platform with
    | working | rest f => simp [(h.atRest (by rw [hp]; rfl)).2.1] at hm
    | unwinding t => simp [(h.undoing t hp).1] at hm
    | entering t | waking f | forcing => rfl
  refine h.groupRight hp (ha.undo_none fun t ht => ?_)
  simp [ht, Platform.runsPlan] at hp

theorem engineRight_memberCompleted (m : Member) (s : State) (h : s.GroupRight .start) (hm : m ∈ s.eng.running) :
    (memberCompleted m s).1.EngineRight :=
  engineRight_settle (right_groupTest _ (h.completeRunning hm _))

theorem engineRight_memberFailed (m : Member) (d : Domain) (st : DomState) (c : FaultCause) (s : State)
    (h : s.GroupRight .start) : (memberFailed m d st c s).1.EngineRight := by
  have hf := h.fail m d st c (.start s)
  simp only [memberFailed]
  split
  · next ha =>
    refine engineRight_settle ⟨⟨_, hf.abandonGroup _, by simp⟩, fun _ => abandonGroup_running _ _, by simp, by simp,
      fun _ _ _ => ?_⟩
    rw [abandonGroup_platform]
    exact takesAbort_not_forcing ha
  · exact engineRight_settle (right_groupTest _ hf)

theorem State.EngineRight.congr (h : s.EngineRight) (k : SameTables s t) : t.EngineRight := by
  have hu := unstarted_of_plan k.plan
  have ha := k.agents
  constructor
  case atRest =>
    intro hp
    obtain ⟨h1, h2, h3, h4⟩ := h.atRest (k.platform ▸ hp)
    exact ⟨k.plan.trans h1, k.running.trans h2, k.orders.trans h3, k.rising h4⟩
  case structured => exact structured_of_agents k.agents k.plan h.structured
  case forcingRising => exact fun hp => k.rising (h.forcingRising (k.platform.symm.trans hp))
  case directory => exact k.directory ▸ h.directory
  all_goals
    simp only [k.platform, k.plan, k.undo, k.running, k.orders, k.undoStack, k.abortPending, k.forcingCause, ha, hu]
  exacts [h.members, h.positions, h.agents, h.unstarted, h.apart, h.orders, h.ordersApart, h.ordersRun, h.ordersUndo,
    h.undoing, h.stack, h.stackRoom, h.stackEmpty, h.abort, h.cause]

theorem engineRight_forcingEvent (c : ReportCause) (left : Departed) (s : State) (h : s.EngineRight) :
    (forcingEvent c left s).1.EngineRight := by
  unfold forcingEvent
  split
  · exact h
  · exact h
  · split
    · unfold deferForcing
      split
      · next l hl => exact h.congr (.of_eng (by simp [State.kept, State.withLdr, hl, Loading.kept]) rfl)
      · exact h
    · exact engineRight_beginForcing _ _ s h.directory
  all_goals exact engineRight_beginForcing _ _ s h.directory

/-! ## Latch events and the end of an event -/

/-- A pending abort is written in ENTERING (R68). -/
theorem State.EngineRight.abortPending (h : s.EngineRight) (src : Source) {x : Sleep} (hp : s.eng.platform = .entering x) :
    (s.withEng { s.eng with abortPending := some src }).EngineRight :=
  { h with
    structured := structured_of_agents (s := s) rfl rfl h.structured
    abort := fun _ => ⟨x, hp⟩ }

theorem engineRight_armedLatch (src : Source) (left : Departed) (s : State) (ha : s.ArmedRight) (h : s.EngineRight) :
    (armedLatch src left s).1.EngineRight := by
  unfold armedLatch
  split
  · next f hp =>
    split
    · exact engineRight_acceptLatched f left s (h.idle (ha.undo_none (by simp [hp])) (by rw [hp]; rfl))
    · exact h
  · next x hp =>
    split
    · exact h.abortPending src hp
    · exact h
  all_goals exact h

theorem latchBit_sameTables (src : Source) (s : State) : SameTables s (latchBit src s) := by
  simp only [latchBit]
  split
  · exact .refl s
  · refine SameTables.trans ?_ (sameTables_queueUp _ _)
    exact .of_eng rfl rfl

theorem stormStep_sameTables (src : Source) (s : State) : SameTables s (stormStep src s) := by
  refine .of_eng (stormStep_kept src s) ?_
  unfold stormStep suppress
  (repeat' split) <;> simp

theorem engineRight_latchFrom (src : Source) (p : State × Departed) (ha : p.1.ArmedRight) (h : p.1.EngineRight) :
    (latchFrom src p).1.EngineRight := by
  have h2 := (h.congr (latchBit_sameTables src p.1)).congr (stormStep_sameTables src _)
  unfold latchFrom armStep
  split
  · exact engineRight_armedLatch src _ _ (armedRight_stormStep src _ (ha.congr (latchBit_sameArming src p.1))) h2
  · exact h2

theorem engineRight_relatch (c : SourceSet) (p : State × Departed) (h : p.1.ArmedRight ∧ p.1.EngineRight) :
    (relatch c p).1.EngineRight := by
  refine (pair_foldl (P := fun s => s.ArmedRight ∧ s.EngineRight) _ (fun p k h => ?_) _ p h).2
  split
  · exact ⟨armedRight_latchFrom _ p h.1, engineRight_latchFrom _ p h.1 h.2⟩
  · exact h

theorem engineRight_latchRail (d : Domain) (p : State × Departed) (h : p.1.EngineRight) : (latchRail d p).1.EngineRight := by
  have h1 : (writeCause d .pgLost (writeFault d .latched p.1)).EngineRight := h.congr (.of_eng rfl rfl)
  simp only [latchRail]
  split
  · exact h1.congr (sameTables_queueUp _ _)
  · exact engineRight_forcingEvent _ _ _ h1

theorem engineRight_monitorFrom (n : Nat) (p : State × Departed) (h : p.1.EngineRight) : (monitorFrom n p).1.EngineRight := by
  induction n generalizing p with
  | zero => exact h
  | succ n ih =>
    unfold monitorFrom
    split
    · exact ih _ (engineRight_latchRail _ p h)
    · exact h

theorem engineRight_endEvent (p : State × Departed) (h : p.1.EngineRight) : (endEvent p).EngineRight :=
  (engineRight_monitorFrom 12 p h).congr (.of_eng (reclassify_kept _ _) (reclassify_eng _ _))

/-! ## GO and ORDER-DONE -/

theorem checkGo_steps {s : State} {payload : List Byte} {t : Sleep} {c : Bool} {steps : List PlanStep}
    (h : checkGo s payload = .ok (t, c, steps)) : checkSequence s t.code = .ok steps := by
  unfold checkGo at h
  (repeat' split at h) <;> simp_all

/-- An accepted GO begins its Plan with nothing else in the tables (R42, R44). -/
theorem engineRight_acceptGo (f : Frame) (t : Sleep) (c : Bool) (steps : List PlanStep) (s : State) (ha : s.ArmedRight)
    (h : s.Idle) (hp : s.eng.platform = .working) (hl : s.ldr.loading = none) (hsteps : checkSequence s t.code = .ok steps) :
    (acceptGo f t c steps s).1.EngineRight := by
  have k := outside_answer f .ok [] (enterSleep t c steps s)
  have hs : StepsRight s (planOf steps ((computeArmed t (clearForGo c s)).dirEntry t.code).commit
      (computeArmed t (clearForGo c s)).wake.armed none).steps := stepsRight_planOf h.directory hsteps _ _ _
  have hce : (clearForGo c s).eng = s.eng := by unfold clearForGo; split <;> rfl
  have h1 : (enterSleep t c steps s).Cleared := by
    constructor <;> simp only [enterSleep, computeArmed, State.withPermit, withGate_eng, withEng_eng, withWake_eng, hce]
    exacts [h.running, h.orders, h.undo, h.undoStack, h.abort, h.directory]
  have hplan : (answer f .ok [] (enterSleep t c steps s)).eng.plan = some (planOf steps
      ((computeArmed t (clearForGo c s)).dirEntry t.code).commit (computeArmed t (clearForGo c s)).wake.armed none) := by
    rw [k.eng]; rfl
  have hagent : (answer f .ok [] (enterSleep t c steps s)).orderAgent = s.orderAgent := by
    rw [k.sameTables.agents]
    unfold enterSleep clearForGo
    split <;> rfl
  have hplat : (answer f .ok [] (enterSleep t c steps s)).eng.platform = .entering t := by rw [k.eng]; rfl
  have hrun := (h1.congr k.sameTables).begin (by rw [hplat]; rfl) hplan rfl
    ⟨(structureFault_congr hagent _ _).trans hs.structured, hs.apart, hs.length⟩
    (fun hc => by
      have : (enterSleep t c steps s).eng.forcingCause = none := by
        simp only [enterSleep, computeArmed, State.withPermit, withGate_eng, withEng_eng, withWake_eng, hce, h.cause]
      simp [k.eng, this] at hc)
    (by simp [hplat]) (.start (answer f .ok [] (enterSleep t c steps s)))
  have hu : (answer f .ok [] (enterSleep t c steps s)).unstarted = (planOf steps
      ((computeArmed t (clearForGo c s)).dirEntry t.code).commit (computeArmed t (clearForGo c s)).wake.armed none).steps := by
    simp [State.unstarted, hplan, planOf]
  refine engineRight_relatch _ _ ⟨?_, ?_⟩
  · exact armedRight_settle _ (((armedRight_enterSleep t c steps s ha hp hl).congr k.sameArming).congr
      (runSteps_sameArming _ _ _))
  · rw [hu]
    exact engineRight_settle hrun

/-- An order that has been answered leaves the table. -/
theorem engineRight_removeOrder (o : OrderEntry) (s : State) (h : s.EngineRight) : (removeOrder o s).EngineRight :=
  { h with
    atRest := fun hp => by
      obtain ⟨h1, h2, h3, h4⟩ := h.atRest hp
      exact ⟨h1, h2, by simp [removeOrder, State.withOrders, h3], h4⟩
    structured := structured_of_agents (s := s) rfl rfl h.structured
    orders := (List.length_filter_le _ _).trans h.orders
    ordersApart := h.ordersApart.filter _
    ordersRun := fun x hx => h.ordersRun x (List.mem_of_mem_filter hx)
    ordersUndo := fun x hx hpos => by
      obtain ⟨hx, hne⟩ := List.mem_filter.1 hx
      obtain ⟨hu, he⟩ := h.ordersUndo x hx hpos
      refine ⟨hu, ?_⟩
      show s.eng.orders.filter _ = [x]
      rw [he, List.filter_singleton, hne]
      rfl }

theorem engineRight_orderMatched (o : OrderEntry) (reached : OrdState) (s : State) (ha : s.ArmedRight) (h : s.EngineRight) :
    (orderMatched o reached s).1.EngineRight := by
  have h1 := engineRight_removeOrder o s h
  have ha1 : (removeOrder o s).ArmedRight := ha.congr ⟨rfl, rfl, rfl, rfl, rfl, rfl, rfl, rfl, rfl, rfl⟩
  have kd := fun d st => sameTables_writeDomain d st (removeOrder o s)
  simp only [orderMatched]
  split
  · split
    · next m hm =>
      have hm := List.mem_of_find?_eq_some hm
      have hg := h1.group_of_member ha1 hm
      split
      · exact engineRight_memberCompleted m _ (hg.congr (kd _ _)) ((kd _ _).running ▸ hm)
      · exact engineRight_memberFailed m _ _ _ _ hg
    · exact h1.congr (kd _ _)
  · split
    · next u hu =>
      have hp := ha1.undo (by simp [hu])
      split
      · exact engineRight_undoEnded u _ (h1.congr (kd _ _)) ((kd _ _).platform ▸ hp)
      · exact engineRight_undoEnded u _ (h1.congr (sameTables_failed _ _ _ _))
          ((sameTables_failed _ _ _ (removeOrder o s)).platform ▸ hp)
    · exact h1.congr (kd _ _)

theorem engineRight_takeOrderDone (f : Frame) (s : State) (ha : s.ArmedRight) (h : s.EngineRight) :
    (takeOrderDone f s).1.EngineRight := by
  unfold takeOrderDone
  split
  · exact h.congr (outside_countDiscarded 1 s).sameTables
  · split
    · exact engineRight_orderMatched _ _ s ha h
    · unfold orderUnmatched
      split
      · split
        · simp only [lateDone]
          have hl := fun d st => (h.congr (sameTables_writeDomain d st s)).congr (outside_countLate _).sameTables
          split
          · exact (hl _ _).congr (sameTables_leaveRising _ _ _)
          · exact hl _ _
        · exact h.congr (outside_countStray s).sameTables
      · exact h.congr (outside_countStray s).sameTables

/-! ## Power-good lines -/

/-- Members of positions of their own complete one after the other (R56). -/
theorem completeEach (l : List Member) (p : State × Departed) (h : p.1.GroupRight .start)
    (hl : ∀ m ∈ l, m ∈ p.1.eng.running) (hn : l.Pairwise fun x y => x.plan.position ≠ y.plan.position) :
    (l.foldl (fun p m => completeMember m p.2 p.1) p).1.GroupRight .start := by
  induction l generalizing p with
  | nil => exact h
  | cons m l ih =>
    obtain ⟨hm, hn⟩ := List.pairwise_cons.1 hn
    refine ih _ (h.completeRunning (hl m (List.mem_cons_self ..)) p.2) (fun x hx => ?_) hn
    have hrun : (completeMember m p.2 p.1).1.eng.running = (dropMember m p.1).eng.running :=
      (completeMember_tables m p.2 p.1).running.trans (by unfold pushUndo; (repeat' split) <;> rfl)
    rw [hrun]
    exact List.mem_filter.2 ⟨hl x (List.mem_cons_of_mem _ hx), by simpa using (hm x hx).symm⟩

theorem engineRight_completeAwaiting (l : PgLine) (b : Bool) (s : State) (ha : s.ArmedRight) (h : s.EngineRight) :
    (completeAwaiting l b s).1.EngineRight := by
  unfold completeAwaiting
  split
  · exact h
  · next m rest hl =>
    have hmem : ∀ x ∈ m :: rest, x ∈ s.eng.running := fun x hx => List.mem_of_mem_filter (hl ▸ hx)
    exact engineRight_settle (right_groupTest _ (completeEach (m :: rest) (s, .start s)
      (h.group_of_member ha (hmem m (List.mem_cons_self ..))) hmem (hl ▸ h.positions.filter _)))

/-! ## The commands -/

/-- The tables are open to writes at rest alone, or while a loading goes on, which is at rest too. -/
theorem State.EngineRight.idle_of_open (h : s.EngineRight) (ha : s.ArmedRight) (ho : s.TablesOpen) : s.Idle := by
  have hp : s.eng.platform.transitional = false := by
    obtain ho | ho := ho
    · exact ho
    · obtain ⟨l, hl⟩ := Option.isSome_iff_exists.1 ho
      rw [(ha.loading l hl).2]
      split <;> rfl
  refine h.idle (ha.undo_none fun t ht => ?_) hp
  simp [ht, Platform.transitional] at hp

end Sys2Proof.Machine
end

section
/-! SUPPORT. The Engine's tables through every command (R2, R22): what a table write keeps. The statement O58 is settled
here. -/

namespace Sys2Proof.Machine

variable {s t : State}

theorem writeFrom_forall {α : Type} {n : Nat} {Q : α → Prop} (v : Vector α n) (first : Nat) (l : List α)
    (hv : ∀ k : Fin n, Q v[k]) (hl : ∀ a ∈ l, Q a) (k : Fin n) : Q (writeFrom v first l)[k] := by
  have h := writeFrom_getElem? v first l k k.2
  rw [Vector.getElem?_eq_getElem k.2] at h
  split at h
  · obtain ⟨hi, ha⟩ := List.getElem?_eq_some_iff.1 h.symm
    exact ha ▸ hl _ (List.getElem_mem hi)
  · rw [Vector.getElem?_eq_getElem k.2] at h
    exact Option.some.inj h ▸ hv k

theorem sameTables_rearmAtRest (s : State) : SameTables s (rearmAtRest s) := by
  unfold rearmAtRest
  split
  · split
    · exact .refl s
    · exact .of_agents rfl rfl
  all_goals exact .refl s

theorem sameTables_withWake (s : State) (w : WakeUnit) : SameTables s (s.withWake w) := .of_agents rfl rfl

theorem sameTables_rearmAfterClear (s : State) : SameTables s (rearmAfterClear s) := by
  unfold rearmAfterClear
  split
  · exact sameTables_withWake s _
  all_goals exact sameTables_rearmAtRest s

theorem sameTables_clearSuppression (named : SourceSet) (s : State) : SameTables s (clearSuppression named s) := by
  simp only [clearSuppression]
  split
  · exact .refl s
  · exact (sameTables_withWake s _).trans (sameTables_rearmAfterClear _)

/-! ## Table writes at rest -/

theorem idle_emptyTables (s : State) (h : s.Idle) : (emptyTables s).Idle := by
  have he : (emptyTables s).eng = { s.eng with
      directory := Vector.replicate 7 DirEntry.empty, store := Vector.replicate 128 StepRecord.empty } := by
    simp [emptyTables]
  refine h.of_tables ⟨_, _, he⟩ fun k => ?_
  rw [he]
  simp [DirEntry.empty]

theorem idle_acceptReinit (s : State) (h : s.Idle) : (acceptReinit s).Idle :=
  idle_emptyTables _ (h.congr ⟨rfl, rfl, rfl, rfl, rfl, rfl, rfl, rfl, rfl, rfl, id⟩)

theorem idle_fallbackTables (s : State) (h : s.Idle) : (fallbackTables s).Idle := by
  have h1 := idle_emptyTables s h
  refine h1.of_tables ⟨_, _, rfl⟩ fun k => ?_
  exact writeFrom_forall (Q := fun e : DirEntry => e.count ≤ 32) _ _ _ h1.directory (by simp) k

theorem idle_writeDomains (first : Nat) (configs : List DomainConfig) (holder : Domain) (s : State) (h : s.Idle) :
    (writeDomains first configs holder s).Idle := by
  have he : (writeDomains first configs holder s).eng = s.eng := by
    simp only [writeDomains]
    split <;> simp
  exact h.of_tables ⟨_, _, he⟩ (he ▸ h.directory)

/-! ## Power and the clock -/

/-- What a mains loss leaves of the Engine (R85). -/
theorem mainsLoss_eng (s : State) : (mainsLoss s).eng = { s.eng with
    platform := .rest .softoff, plan := none, running := [], orders := [], abortPending := none, undoStack := [],
    undo := none, unwind := none, forcingCause := none, rising := 0#12,
    lastReport := some ⟨s.eng.platform.sequence, .forced, .acLoss, none, none, 0#12⟩ } := by
  simp only [mainsLoss, recordReport, startSleepCount, withEng_eng, withQual_eng, armAtMainsLoss_fields, setArm,
    withWake_eng, State.withPlatform, allDomainsOff_eng]
  simp [driveSafe, clearHold, clearWork, noteMainsLoss_eng, writeAcok]

/-- A mains loss leaves nothing in the tables (R85). -/
theorem idle_mainsLoss (s : State) (hd : ∀ k : Fin 7, s.eng.directory[k].count ≤ 32) : (mainsLoss s).Idle := by
  have he := mainsLoss_eng s
  have hc : (mainsLoss s).Cleared := by
    constructor
    case directory => rw [he]; exact hd
    all_goals rw [he]
  exact ⟨hc, by rw [he]; rfl, by rw [he], by rw [he], by rw [he]⟩

theorem engineRight_reset (q : List Instr) (n : Nat) : ((State.reset.withPending q).withDraws n).EngineRight :=
  State.Idle.engineRight ⟨⟨rfl, rfl, rfl, rfl, rfl, fun k => by
    simp [State.reset, State.withPending, State.withDraws, Engine.initial, DirEntry.empty]⟩, rfl, rfl, rfl, rfl⟩

/-- An edge of the slow clock runs the timers of the members and of the undo, and nothing else of the Engine. -/
theorem engineRight_slowEdge (p : Pins) (s : State) (h : s.EngineRight) : (slowEdge p s).EngineRight := by
  have hrun : (slowEdge p s).eng.running = s.eng.running.map fun m => { m with timer := tickTimer m.timer } := rfl
  have hundo : (slowEdge p s).eng.undo.isSome = s.eng.undo.isSome := by simp [slowEdge, tickEngine]
  have ha : (slowEdge p s).orderAgent = s.orderAgent := by
    funext a
    cases a <;> rfl
  exact { h with
    atRest := fun hp => by
      obtain ⟨h1, h2, h3, h4⟩ := h.atRest hp
      exact ⟨h1, by rw [hrun, h2]; rfl, h3, h4⟩
    members := by rw [hrun, List.length_map]; exact h.members
    positions := List.pairwise_map.2 h.positions
    agents := by rw [ha]; exact List.pairwise_map.2 h.agents
    structured := structured_of_agents ha rfl h.structured
    apart := fun m hm q hq => by
      obtain ⟨x, hx, rfl⟩ := List.mem_map.1 (hrun ▸ hm)
      exact h.apart x hx q hq
    ordersRun := fun o ho pos hpos => by
      obtain ⟨m, hm, hp, hagent⟩ := h.ordersRun o ho pos hpos
      exact ⟨{ m with timer := tickTimer m.timer }, List.mem_map.2 ⟨m, hm, rfl⟩, hp, ha ▸ hagent⟩
    ordersUndo := fun o ho hpos => hundo ▸ h.ordersUndo o ho hpos
    undoing := fun t ht => by
      obtain ⟨h1, h2⟩ := h.undoing t ht
      exact ⟨by rw [hrun, h1]; rfl, h2⟩
    stackRoom := fun t ht => by rw [hrun, List.length_map]; exact h.stackRoom t ht }

/-! ## Every command -/

/-- The law of the arming and that of the Engine's tables together, as the steps keep them. -/
def State.EngineLaw (s : State) : Prop := s.ArmedRight ∧ s.EngineRight

theorem State.EngineLaw.idle_of_loading (h : s.EngineLaw) {l : Loading} (hl : s.ldr.loading = some l) : s.Idle :=
  h.2.idle_of_open h.1 (.inr (by simp [State.isLoading, hl]))

theorem State.EngineLaw.idle_at (h : s.EngineLaw) (hp : s.eng.platform.transitional = false) : s.Idle :=
  h.2.idle_of_open h.1 (.inl hp)

theorem State.EngineLaw.unwinding (h : s.EngineLaw) {u : UndoRun} (hu : s.eng.undo = some u) :
    ∃ t, s.eng.platform = .unwinding t := h.1.undo (by simp [hu])

theorem engineRight_goRun (f : Frame) (t : Sleep) (c : Bool) (steps : List PlanStep) (s : State)
    (hok : checkGo s f.payload = .ok (t, c, steps)) (hl : s.isLoading = false) (h : s.EngineLaw) :
    (acceptGo f t c steps s).1.EngineRight :=
  have hp := checkGo_working hok
  engineRight_acceptGo f t c steps s h.1 (h.idle_at (by rw [hp]; rfl)) hp (isLoading_false.1 hl) (checkGo_steps hok)

theorem engineRight_undoLineDone (u : UndoRun) (s : State) (h : s.EngineLaw) (hu : s.eng.undo = some u) :
    (undoEnded u (undoLineDone u.record.action s)).1.EngineRight :=
  have k := sameTables_undoLineDone u.record.action s
  engineRight_undoEnded u _ (h.2.congr k) (k.platform ▸ h.unwinding hu)

theorem engineRight_undoFailed (u : UndoRun) (d : Domain) (c : FaultCause) (s : State) (h : s.EngineLaw)
    (hu : s.eng.undo = some u) : (undoFailed u d c s).1.EngineRight :=
  have k := sameTables_failed d .unknown c s
  engineRight_undoEnded u _ (h.2.congr k) (k.platform ▸ h.unwinding hu)

theorem engineRight_writeWakeSettings (e a b c : SourceSet) (threshold : Nat) (w : TimeCode) (s : State)
    (h : s.EngineRight) : (writeWakeSettings e a b c threshold w s).EngineRight :=
  h.congr ((sameTables_withWake s _).trans (sameTables_rearmAtRest _))

theorem engineRight_writeDirectory (first : Nat) (entries : List DirEntry) (s : State) (h : s.Idle)
    (hv : ∀ e ∈ entries, e.count ≤ 32) :
    (s.withEng { s.eng with directory := writeFrom s.eng.directory first entries }).EngineRight := by
  refine State.Idle.engineRight (h.of_tables ⟨_, s.eng.store, rfl⟩ fun k => ?_)
  exact writeFrom_forall (Q := fun e : DirEntry => e.count ≤ 32) _ _ _ h.directory hv k

/-- Every command keeps the two laws. -/
theorem engineLaw_commandStable : CommandStable State.EngineLaw where
  outside _ _ ho h := ⟨armedRight_commandStable.outside _ _ ho h.1, h.2.congr ho.sameTables⟩
  reset s h := ⟨armedRight_reset _ _, engineRight_reset _ _⟩
  edge p s h := ⟨armedRight_slowEdge p s h.1, engineRight_slowEdge p s h.2⟩
  status d x s hx h := ⟨armedRight_commandStable.status d x s hx h.1, h.2.congr (.of_agents rfl rfl)⟩
  endEvent p h := ⟨armedRight_endEvent p h.1, engineRight_endEvent p h.2⟩
  latch x s h := ⟨armedRight_commandStable.latch x s h.1, h.2.congr (sameTables_withWake s _)⟩
  window n s h := ⟨armedRight_commandStable.window n s h.1, h.2.congr (sameTables_withWake s _)⟩
  counts s h := ⟨armedRight_commandStable.counts s h.1, h.2.congr (sameTables_withWake s _)⟩
  suppression n s h := ⟨armedRight_clearSuppression n s h.1, h.2.congr (sameTables_clearSuppression n s)⟩
  latchFrom src p h := ⟨armedRight_latchFrom src p h.1, engineRight_latchFrom src p h.1 h.2⟩
  go f t c steps s hok hl h := ⟨armedRight_commandStable.go f t c steps s hok hl h.1, engineRight_goRun f t c steps s hok hl h⟩
  orderDone f s hl h := ⟨armedRight_takeOrderDone f s h.1, engineRight_takeOrderDone f s h.1 h.2⟩
  completed m s hm h := ⟨armedRight_memberCompleted m s h.1, engineRight_memberCompleted m s (h.2.group_of_member h.1 hm) hm⟩
  failed m d st c s hm h := ⟨armedRight_memberFailed m d st c s h.1,
    engineRight_memberFailed m d st c s (h.2.group_of_member h.1 hm)⟩
  undoFailed u d c s hu h := ⟨armedRight_commandStable.undoFailed u d c s hu h.1, engineRight_undoFailed u d c s h hu⟩
  undoDone u s hu h := ⟨armedRight_commandStable.undoDone u s hu h.1, engineRight_undoLineDone u s h hu⟩
  awaiting l b s h := ⟨armedRight_completeAwaiting l b s h.1, engineRight_completeAwaiting l b s h.1 h.2⟩
  forcing c left s h := ⟨armedRight_forcingEvent c left s h.1, engineRight_forcingEvent c left s h.2⟩
  restore left s hp hl h := ⟨armedRight_commandStable.restore left s hp hl h.1,
    engineRight_acceptWake _ _ left s (h.idle_at (by rw [hp]; rfl))⟩
  mainsLoss s h := ⟨armedRight_mainsLoss s, (idle_mainsLoss s h.2.directory).engineRight⟩
  store s x ho h := ⟨armedRight_commandStable.store s x ho h.1,
    State.Idle.engineRight ((h.2.idle_of_open h.1 ho).of_tables ⟨s.eng.directory, x, rfl⟩ h.2.directory)⟩
  directory s first entries ho hv h := ⟨armedRight_commandStable.directory s first entries ho hv h.1,
    engineRight_writeDirectory first entries s (h.2.idle_of_open h.1 ho) hv⟩
  domains first configs holder s ho h := ⟨armedRight_writeDomains first configs holder s h.1,
    (idle_writeDomains first configs holder s (h.2.idle_of_open h.1 ho)).engineRight⟩
  agents s x h := ⟨armedRight_commandStable.agents s x h.1, h.2.congr (.of_agents rfl rfl)⟩
  settings e a b c threshold w s ho hv h := ⟨armedRight_commandStable.settings e a b c threshold w s ho hv h.1,
    engineRight_writeWakeSettings e a b c threshold w s h.2⟩
  reinit tag s hp hl hu h := ⟨armedRight_startReinit tag s h.1 hp, h.2.congr (.of_agents rfl rfl)⟩
  phase l x s hl h := ⟨armedRight_commandStable.phase l x s hl h.1, h.2.congr (.of_agents rfl rfl)⟩
  acceptImage l s hl hr h := ⟨armedRight_commandStable.acceptImage l s hl hr h.1,
    (idle_acceptReinit s (h.idle_of_loading hl)).engineRight⟩
  fallback l s hl h := ⟨armedRight_commandStable.fallback l s hl h.1,
    (idle_fallbackTables s (h.idle_of_loading hl)).engineRight⟩
  endPower l s hl hk h := ⟨armedRight_endPower l s h.1 hl hk,
    State.EngineRight.congr (s := (startWindow (computeArmed .softoff s)).withLoading none) (h.2.congr (.of_agents rfl rfl))
      (.of_eng (recomputeLink_kept _) (recomputeLink_eng _))⟩
  endReinit l s hl hk h := ⟨armedRight_endReinit l s h.1 hl hk,
    State.EngineRight.congr (s := s.withLoading none) (h.2.congr (.of_agents rfl rfl)) (.of_eng (recomputeLink_kept _) (recomputeLink_eng _))⟩

/-- Settles O58: the tables keep their law with that of the arming, which keeps itself. -/
theorem everyStepKeepsTheEngineTables : Obligations.EveryStepKeepsTheEngineTables := fun _ _ hstep ha he =>
  (engineLaw_commandStable.step (fun _ _ h => ⟨h.1.congr (.of_blocks rfl rfl rfl), h.2.congr (.of_agents rfl rfl)⟩)
    hstep ⟨ha, he⟩).2

/-- Settles O60: the reset state is the one that power-on reset leaves with no command waiting and nothing drawn. -/
theorem resetMeetsTheLaws : Obligations.ResetMeetsTheLaws :=
  have hlink := linkLaw_reset [] 0
  ⟨bounded_reset [] 0, sourceZero_reset [] 0, armedRight_reset [] 0, hlink.1, hlink.2, engineRight_reset [] 0, rfl⟩

end Sys2Proof.Machine
end

section
/-! SUPPORT. The queue of commands, the Engine's timers and the power commands (R85, R87, R174): the statements O1, O2, O4 to O7
and O55 are settled here. -/

namespace Sys2Proof.Machine

/-! ## The queue and the idle block -/

/-- Settles O1: the definition of a step with a command waiting. -/
theorem stepRunsFrontCommand : Obligations.StepRunsFrontCommand := fun c rest s h => by
  simp only [step, h]

/-- Settles O2: the two cases of the idle block. -/
theorem idleTakesDueEventOrEdge : Obligations.IdleTakesDueEventOrEdge := fun s h => by
  have hs : step s = idle s := by simp only [step, h]
  refine ⟨fun c hc => ?_, fun hc => ?_⟩
  · rw [hs]
    simp only [idle, hc, chooseDue]
  · rw [hs]
    simp only [idle, hc]

/-- Settles O7: mantissa and exponent are the remainder and the quotient by 32. -/
theorem timeCodeIsMantissaTimesPowerOfFour : Obligations.TimeCodeIsMantissaTimesPowerOfFour := fun e n he hn => by
  have hc : (BitVec.ofNat 8 (32 * e + n)).toNat = 32 * e + n := by
    rw [BitVec.toNat_ofNat]
    omega
  have hmod : (32 * e + n) % 32 = n := by omega
  have hdiv : (32 * e + n) / 32 = e := by omega
  rw [ticks, hc, hmod, hdiv]

/-! ## The Engine's timers -/

/-- Settles O55: whatever path the timer's event takes, each of its operations keeps the rest. -/
theorem engineTimersLeaveTablesAndSettings : Obligations.EngineTimersLeaveTablesAndSettings := fun s p d c hc => by
  simp only [List.mem_cons, List.not_mem_nil, or_false] at hc
  obtain rfl | rfl | rfl | rfl | rfl | rfl | rfl := hc
  all_goals refine ⟨_, rfl, ?_⟩
  all_goals (repeat' split) <;> simp [undoFailed]

/-! ## Power-on reset -/

theorem getElem_replicate_fin {α : Type} {n : Nat} (a : α) (i : Fin n) : (Vector.replicate n a)[i] = a := by simp

/-- Settles O4: the reset state, block by block. -/
theorem powerOnResetGivesInitialState : Obligations.PowerOnResetGivesInitialState := fun s => by
  refine ⟨_, rfl, rfl, getElem_replicate_fin _, rfl, rfl, rfl, rfl, rfl, rfl, rfl, rfl, rfl, rfl, fun l => ?_, rfl, rfl, rfl, rfl,
    rfl, rfl, rfl, getElem_replicate_fin _, rfl, rfl, rfl, rfl, rfl, getElem_replicate_fin _, getElem_replicate_fin _,
    getElem_replicate_fin _, rfl, getElem_replicate_fin _, getElem_replicate_fin _, rfl, rfl, rfl, rfl, rfl, rfl,
    fun k => ?_, rfl, rfl, rfl, rfl, rfl, rfl, rfl, rfl, rfl, rfl, rfl, rfl, rfl, rfl, rfl, rfl, rfl, rfl, rfl, rfl, rfl,
    fun _ => rfl, rfl, rfl⟩
  · exact congrArg _ (getElem_replicate_fin (n := 16) _ l)
  · have hk := getElem_replicate_fin (n := 8) LineQualifier.initial k
    exact ⟨congrArg LineQualifier.mode hk, congrArg LineQualifier.filter hk⟩

/-! ## Mains loss and mains return -/

theorem noteMainsLoss_blocks (s : State) : (noteMainsLoss s).dom = s.dom ∧ (noteMainsLoss s).qual = s.qual ∧
    (noteMainsLoss s).mon = s.mon ∧ (noteMainsLoss s).matcher = s.matcher ∧ (noteMainsLoss s).lines = s.lines ∧
    (noteMainsLoss s).mgmt = s.mgmt := by
  unfold noteMainsLoss
  split <;> exact ⟨rfl, rfl, rfl, rfl, rfl, rfl⟩

/-- What a mains loss does before the domains are switched off (R85). -/
def State.mainsCut (s : State) : State :=
  let s1 := clearWork (noteMainsLoss (writeAcok false s))
  driveSafe (clearHold (s1.withEng { s1.eng with forcingCause := none, rising := 0#12 }))

theorem mainsCut_blocks (s : State) : s.mainsCut.dom = s.dom ∧ s.mainsCut.wake = s.wake ∧
    s.mainsCut.qual = { s.qual with acok := ⟨false, 0⟩ } ∧ s.mainsCut.mon = s.mon ∧ s.mainsCut.matcher = s.matcher ∧
    s.mainsCut.gate = ⟨[], false⟩ ∧ s.mainsCut.lines = ⟨s.lines.safe, s.lines.safe⟩ ∧ s.mainsCut.mgmt = s.mgmt := by
  obtain ⟨h1, h2, h3, h4, h5, h6⟩ := noteMainsLoss_blocks (writeAcok false s)
  exact ⟨h1, noteMainsLoss_wake _, h2, h3, h4, rfl, congrArg (fun l : LineDriver => (⟨l.safe, l.safe⟩ : LineDriver)) h5, h6⟩

theorem offAfter_mainsCut (s : State) : OffAfter allDomains s.mainsCut (allDomainsOff s.mainsCut) :=
  offAfter_allDomainsOff _ (noteMainsLoss_linkHeld (writeAcok false s))

theorem armAtMainsLoss_blocks (s : State) : (armAtMainsLoss s).dom = s.dom ∧ (armAtMainsLoss s).qual = s.qual ∧
    (armAtMainsLoss s).mon = s.mon ∧ (armAtMainsLoss s).matcher = s.matcher ∧ (armAtMainsLoss s).gate = s.gate ∧
    (armAtMainsLoss s).lines = s.lines ∧ (armAtMainsLoss s).mgmt = s.mgmt := by
  unfold armAtMainsLoss
  split <;> exact ⟨rfl, rfl, rfl, rfl, rfl, rfl, rfl⟩

/-- What a mains loss leaves beside the Engine: the blocks as the domains' switching off leaves them, the arm and the
sleep-duration counter (R85). -/
theorem mainsLoss_blocks (s : State) : (mainsLoss s).dom = (allDomainsOff s.mainsCut).dom ∧ (mainsLoss s).mon = s.mon ∧
    (mainsLoss s).matcher = s.matcher ∧ (mainsLoss s).gate = ⟨[], false⟩ ∧
    (mainsLoss s).lines = ⟨s.lines.safe, s.lines.safe⟩ ∧
    (mainsLoss s).mgmt.retained = s.mgmt.retained ∧
    (mainsLoss s).qual = { s.qual with acok := ⟨false, 0⟩, sleepCount := 0, sleepCounting := true } ∧
    ∃ x, (mainsLoss s).wake = { s.wake with arm := true, armed := x } := by
  have hm : mainsLoss s = recordReport ⟨s.eng.platform.sequence, .forced, .acLoss, none, none, 0#12⟩
      (startSleepCount (armAtMainsLoss (setArm ((allDomainsOff s.mainsCut).withPlatform (.rest .softoff))))) := rfl
  have ha := armAtMainsLoss_blocks (setArm ((allDomainsOff s.mainsCut).withPlatform (.rest .softoff)))
  obtain ⟨h1, h2, h3, h4, h5, h6, h7⟩ := ha
  obtain ⟨_, c2, c3, c4, c5, c6, c7, c8⟩ := mainsCut_blocks s
  have ho := offAfter_mainsCut s
  rw [hm]
  simp only [recordReport, startSleepCount, withEng_dom, withEng_mon, withEng_matcher, withEng_gate, withEng_lines,
    withEng_mgmt, withEng_qual, withEng_wake, withQual_dom, withQual_mon, withQual_matcher, withQual_gate, withQual_lines,
    withQual_mgmt, withQual_qual, withQual_wake, h1, h2, h3, h4, h5, h6, h7, armAtMainsLoss_fields]
  simp only [setArm, State.withPlatform, withWake_dom, withWake_mon, withWake_matcher, withWake_gate, withWake_lines,
    withWake_mgmt, withWake_qual, withWake_wake, withEng_dom, withEng_mon, withEng_matcher, withEng_gate, withEng_lines,
    withEng_mgmt, withEng_qual, withEng_wake, ho.wake, ho.qual, ho.mon, ho.matcher, ho.gate, ho.lines, ho.retained, c2,
    c3, c4, c5, c6, c7, c8]
  exact ⟨trivial, trivial, trivial, trivial, trivial, trivial, trivial, _, rfl⟩

/-- Settles O5: the blocks as a mains loss leaves them, and the law of the arming for the Armed set. -/
theorem mainsLossCutsEverythingOff : Obligations.MainsLossCutsEverythingOff := fun s hs => by
  have hx : exec .mainsLoss s = .next (mainsLoss s) := by
    show Host.Outcome.next (if s.qual.acok.level then mainsLoss s else s) = _
    rw [if_pos hs]
  refine ⟨mainsLoss s, hx, ?_⟩
  have he := mainsLoss_eng s
  obtain ⟨_, _, harm, hset, _⟩ := mainsLoss_arming s
  obtain ⟨hdom, hmon, hmat, hgate, hlines, hret, hqual, x, hwake⟩ := mainsLoss_blocks s
  obtain ⟨c1, _⟩ := mainsCut_blocks s
  have ho := offAfter_mainsCut s
  have hst : ∀ d : Domain, (mainsLoss s).dom.status[d] = { s.dom.status[d] with recorded := .off } := fun d => by
    rw [hdom, ho.status d, if_pos (mem_allDomains d), c1]
  have harmed : (mainsLoss s).armedFor .softoff = s.armedFor .softoff := by
    simp only [State.armedFor, State.mask, hwake]
  have hlink : (mainsLoss s).dom.linkUp = false := by
    rw [hdom, ho.link]
    simp [mem_allDomains]
  have hrec : ∀ d, (mainsLoss s).recorded d = .off := fun d => congrArg DomainStatus.recorded (hst d)
  have hctl : (mainsLoss s).dom.controller = s.dom.controller := by rw [hdom, ho.controller, c1]
  have hcfg : (mainsLoss s).dom.config = s.dom.config := by rw [hdom, ho.config, c1]
  have hmap : (mainsLoss s).dom.agentMap = s.dom.agentMap := by rw [hdom, ho.agentMap, c1]
  refine ⟨by rw [hqual], by rw [he], by rw [he], by rw [he], by rw [he], by rw [he], by rw [he], by rw [he], by rw [he],
    by rw [hgate], by rw [hgate], by rw [hlines], by rw [hlines], hrec,
    fun d => by rw [hst d]; exact ⟨rfl, rfl, rfl⟩, hlink, by rw [he], harm,
    fun hl => by rw [hset, hl, harmed]; rfl, fun hl => by rw [hset, hl]; rfl, by rw [hqual], by rw [hqual], by rw [he],
    ?_⟩
  rw [hwake, hqual, hmon, hmat, hret, he, hctl, hcfg, hmap]
  simp

/-! ### Mains return -/

/-- No path of an accepted wake writes the Wake Latch, the generation or the Wake Context that it captured (R93, R104). -/
theorem wakeRecord_engineStable (x : BitVec 16 × BitVec 16 × Option WakeContext) :
    EngineStable (fun s => (s.wake.latch, s.wake.generation, s.wake.context) = x) where
  queueUp f s h := by rw [queueUp_wake]; exact h
  queueDown f s h := by rw [queueDown_wake]; exact h
  discard _ _ h := h
  hold _ _ _ h := h
  domain d st s h := by rw [writeDomain_wake]; exact h
  cause _ _ _ h := h
  eng _ _ _ h := h
  levels _ _ h := h
  ownTaken _ _ h := h
  permit _ _ h := h
  engine _ _ _ h := h
  arms _ _ _ h := h
  sleep _ _ _ _ h := h

/-- The Wake Context of a wake is the one of its acceptance (R104). -/
theorem acceptWake_record (f : Sleep) (reason : WakeReason) (left : Departed) (s : State) :
    ((acceptWake f reason left s).1.wake.latch, (acceptWake f reason left s).1.wake.generation,
      (acceptWake f reason left s).1.wake.context) =
    (s.wake.latch, s.wake.generation, some ⟨f, reason, s.wake.latch, s.wake.armed, s.qual.sleepCount⟩) := by
  have h := wakeRecord_engineStable
    (s.wake.latch, s.wake.generation, some ⟨f, reason, s.wake.latch, s.wake.armed, s.qual.sleepCount⟩)
  simp only [acceptWake]
  split
  · exact h.settleWaking f _ (h.runSteps _ _ _ rfl)
  · split
    · exact h.refuseOffWake _ _ rfl
    all_goals exact h.beginForcing _ _ _ rfl

/-- Settles O6: the wake of the after-loss policy, or the level alone. -/
theorem mainsReturnAppliesAfterLossPolicy : Obligations.MainsReturnAppliesAfterLossPolicy := fun s hs hl hr => by
  have hx : exec .mainsReturn s = .next (endEvent (applyAfterLoss (.start (writeAcok true s)) (writeAcok true s))) := by
    show Host.Outcome.next (if s.qual.acok.level then s else mainsReturn s) = _
    rw [if_neg (by simp [hs])]
    simp only [mainsReturn]
    rw [if_neg (by simp [State.isLoading, hl])]
  refine ⟨fun h => ?_, fun ha hp => ?_⟩
  · have hno : applyAfterLoss (.start (writeAcok true s)) (writeAcok true s) =
        (writeAcok true s, .start (writeAcok true s)) := by
      refine if_neg fun ⟨_, h2, h3⟩ => ?_
      obtain h | h := h
      · exact absurd (h.symm.trans h2) (by simp)
      · exact h h3
    rw [hx, hno, endEvent_of_railsGood (hr.congr rfl rfl), reclassify_start]
    rfl
  · have hyes : applyAfterLoss (.start (writeAcok true s)) (writeAcok true s) =
        acceptWake .softoff .powerRestore (.start (writeAcok true s)) (writeAcok true s) := if_pos ⟨rfl, ha, hp⟩
    have hk := acceptWake_kept .softoff .powerRestore (.start (writeAcok true s)) (writeAcok true s)
    have hrec := acceptWake_record .softoff .powerRestore (.start (writeAcok true s)) (writeAcok true s)
    have hgood : (acceptWake .softoff .powerRestore (.start (writeAcok true s)) (writeAcok true s)).1.RailsGood :=
      State.RailsGood.of_kept (s := writeAcok true s) (hr.congr rfl rfl) hk
    refine ⟨_, hx, ?_⟩
    have hacok : ∀ t u : State, t.kept = u.kept → t.qual.acok = u.qual.acok := fun t u h =>
      (congrArg (fun x : State => x.qual.acok) h :)
    rw [hyes]
    refine ⟨?_, ?_⟩
    · rw [hacok _ (writeAcok true s) ((endEvent_kept _).trans hk)]
      rfl
    · rw [endEvent_of_railsGood hgood, reclassify_wake]
      obtain ⟨h1, h23⟩ := Prod.ext_iff.1 hrec
      obtain ⟨h2, h3⟩ := Prod.ext_iff.1 h23
      exact ⟨h3, h1, h2⟩

end Sys2Proof.Machine
end

section
/-! SUPPORT. Frames at the ports (R161 to R165): the statements O8 to O12 are settled here. -/

namespace Sys2Proof.Machine

/-! ## The bytes of a frame -/

theorem extract_append_high {n m : Nat} (x : BitVec n) (y : BitVec m) : (x ++ y).extractLsb' m n = x := by
  ext i hi
  simp [BitVec.getElem_extractLsb', BitVec.getLsbD_append, hi]

theorem extract_append_low {n m : Nat} (x : BitVec n) (y : BitVec m) : (x ++ y).extractLsb' 0 m = y := by
  ext i hi
  simp [BitVec.getElem_extractLsb', BitVec.getLsbD_append, hi]

theorem extract_append_extract (x : Addr) : x.extractLsb' 4 2 ++ x.extractLsb' 0 4 = x := by
  ext i hi
  simp only [BitVec.getElem_append, BitVec.getElem_extractLsb']
  split <;> simp_all [BitVec.getLsbD_eq_getElem]

theorem kind_ofCode_code (k : Kind) : Kind.ofCode (BitVec.ofNat 4 k.code).toNat = some k := by
  cases k <;> rfl

theorem lengthField_ofNat {n : Nat} (h : n ≤ 32) : lengthField (BitVec.ofNat 8 n) = n ∧
    (BitVec.ofNat 8 n).extractLsb' 6 2 = 0#2 := by
  have : n < 33 := Nat.lt_succ_of_le h
  interval_cases n <;> exact ⟨rfl, rfl⟩

theorem tagByte_fields (t : Tag) (p : Bool) : (t ++ (if p then 8#4 else 0#4)).extractLsb' 4 4 = t ∧
    bit (t ++ (if p then 8#4 else 0#4)) 3 = p ∧ (t ++ (if p then 8#4 else 0#4)).extractLsb' 0 3 = 0#3 := by
  revert t p
  decide

/-- Each header field is cut out of the bytes where `frameBody` puts it. -/
theorem checkFrame_frameBytes {f : Frame} (hf : f.payload.length ≤ 32) : checkFrame (frameBytes f) = .good f := by
  obtain ⟨hlen, hzero⟩ := lengthField_ofNat hf
  obtain ⟨htag, hproxy, hlow⟩ := tagByte_fields f.tag f.proxy
  have hbody : frameBytes f = (f.dest ++ f.src.extractLsb' 4 2) :: (f.src.extractLsb' 0 4 ++ BitVec.ofNat 4 f.kind.code) ::
      (f.tag ++ (if f.proxy then 8#4 else 0#4)) :: BitVec.ofNat 8 f.payload.length ::
      (f.payload ++ bytes16 (crc16 (frameBody f))) := by
    simp [frameBytes, frameBody]
  have htwo : (bytes16 (crc16 (frameBody f))).length = 2 := rfl
  have htake : ((f.payload ++ bytes16 (crc16 (frameBody f))).drop f.payload.length).take 2 =
      bytes16 (crc16 (frameBody f)) := by
    rw [List.drop_left]
    rfl
  have hcrc : (f.dest ++ f.src.extractLsb' 4 2) :: (f.src.extractLsb' 0 4 ++ BitVec.ofNat 4 f.kind.code) ::
      (f.tag ++ (if f.proxy then 8#4 else 0#4)) :: BitVec.ofNat 8 f.payload.length :: f.payload = frameBody f := rfl
  rw [hbody]
  simp only [checkFrame, hlen]
  rw [if_neg (Nat.not_lt.2 hf), if_neg (by simp [htwo])]
  simp only [List.take_left, htake, extract_append_high, extract_append_low, kind_ofCode_code, hcrc, mustBeZero, hlow, hzero,
    htag, hproxy, extract_append_extract]
  simp

/-- Settles O8. -/
theorem frameBytesReadBack : Obligations.FrameBytesReadBack := fun _ hf => checkFrame_frameBytes hf

/-! ## Frames at a port -/

/-- A good frame that a port has a place for and that began ready joins its FIFO; with the link DOWN the Upstream Port
discards it (R161, R162, R20). -/
theorem receiveFrame_good {p : PortId} {s : State} {f : Frame} (hf : f.payload.length ≤ 32)
    (hr : (s.port p).receiving ≠ some false) (hl : (s.port p).input.length < 4) :
    receiveFrame p true (frameBytes f) s = acceptFrame p f (s.withPort p { s.port p with receiving := none }) := by
  have hready : beganReady (s.port p) true = true := by
    unfold beganReady Port.ready
    cases h : (s.port p).receiving <;> simp_all
  simp only [receiveFrame, checkFrame_frameBytes hf]
  rw [if_pos hready]

/-- Settles O9. -/
theorem goodFrameJoinsInputFifo : Obligations.GoodFrameJoinsInputFifo := fun s f hf => by
  refine ⟨fun hr hl hup => ?_, fun hr hl hdown => ?_, fun hr hl => ?_⟩
  · refine congrArg Host.Outcome.next ((receiveFrame_good (p := .upstream) hf hr hl).trans ?_)
    exact if_neg fun h => absurd (hup.symm.trans h.2) Bool.noConfusion
  · refine congrArg Host.Outcome.next ((receiveFrame_good (p := .upstream) hf hr hl).trans ?_)
    exact if_pos ⟨rfl, hdown⟩
  · refine congrArg Host.Outcome.next ((receiveFrame_good (p := .downstream) hf hr hl).trans ?_)
    exact if_neg fun h => absurd h.1 (by simp)

theorem lengthField_eq (b : Byte) : lengthField b = (b &&& 0x3F#8).toNat := by
  revert b
  decide

theorem kind_of_byte {b : Byte} (h : 14 ≤ (b &&& 0x0F#8).toNat) : Kind.ofCode (b.extractLsb' 0 4).toNat = none := by
  revert b
  decide

theorem mustBeZero_low {b2 b3 : Byte} (h : b2 &&& 0x07#8 ≠ 0#8) : mustBeZero b2 b3 = false := by
  have h2 : ∀ b : Byte, b &&& 0x07#8 ≠ 0#8 → (b.extractLsb' 0 3 == 0#3) = false := by decide
  simp [mustBeZero, h2 b2 h]

theorem mustBeZero_high {b2 b3 : Byte} (h : b3 &&& 0xC0#8 ≠ 0#8) : mustBeZero b2 b3 = false := by
  have h3 : ∀ b : Byte, b &&& 0xC0#8 ≠ 0#8 → (b.extractLsb' 6 2 == 0#2) = false := by decide
  simp [mustBeZero, h3 b3 h]

/-- The frame errors that the bytes themselves show (R161). -/
theorem checkFrame_error {b0 b1 b2 b3 : Byte} {rest : List Byte}
    (h : (b3 &&& 0x3F#8).toNat > 32 ∨
      ((b3 &&& 0x3F#8).toNat + 2 = rest.length ∧
        (14 ≤ (b1 &&& 0x0F#8).toNat ∨ b2 &&& 0x07#8 ≠ 0#8 ∨ b3 &&& 0xC0#8 ≠ 0#8 ∨
          bytes16 (crc16 ([b0, b1, b2, b3] ++ rest.take (rest.length - 2))) ≠ rest.drop (rest.length - 2)))) :
    checkFrame (b0 :: b1 :: b2 :: b3 :: rest) = .error := by
  simp only [checkFrame]
  rw [← lengthField_eq] at h
  by_cases hlong : 32 < lengthField b3
  · rw [if_pos hlong]
  · obtain ⟨hlen, hbad⟩ := h.resolve_left hlong
    have hr : rest.length - 2 = lengthField b3 := by omega
    rw [if_neg hlong, if_neg (by omega)]
    split
    · rfl
    · next kind hkind =>
      refine if_neg ?_
      obtain hbad | hbad | hbad | hbad := hbad
      · exact absurd (hkind.symm.trans (kind_of_byte hbad)) (by simp)
      · simp [mustBeZero_low hbad]
      · simp [mustBeZero_high hbad]
      · rw [hr] at hbad
        have htake : (rest.drop (lengthField b3)).take 2 = rest.drop (lengthField b3) :=
          List.take_of_length_le (by rw [List.length_drop]; omega)
        rw [htake]
        simpa using fun _ => hbad

theorem receiveFrame_error {p : PortId} {s : State} {r : Bool} {bytes : List Byte} (h : checkFrame bytes = .error) :
    receiveFrame p r bytes s = countFrameError p (s.withPort p { s.port p with receiving := none }) := by
  simp only [receiveFrame, h]

/-- A frame that began while ready was deasserted is a frame error (R161). -/
theorem receiveFrame_unready {p : PortId} {s : State} {f : Frame} {r : Bool} (hf : f.payload.length ≤ 32)
    (hr : (s.port p).receiving.getD r = false) :
    receiveFrame p r (frameBytes f) s = countFrameError p (s.withPort p { s.port p with receiving := none }) := by
  simp only [receiveFrame, checkFrame_frameBytes hf]
  exact if_neg (by simp [beganReady, hr])

/-- Settles O10. -/
theorem frameErrorsAreCountedAtTheirPort : Obligations.FrameErrorsAreCountedAtTheirPort := by
  refine ⟨fun s r b0 b1 b2 b3 rest h => ?_, fun s f r hf hr => ?_, fun s f r hf hr => ?_, fun s => ?_⟩
  · have he := checkFrame_error (b0 := b0) h
    exact ⟨congrArg Host.Outcome.next (receiveFrame_error (p := .upstream) he),
      congrArg Host.Outcome.next (receiveFrame_error (p := .downstream) he)⟩
  · exact congrArg Host.Outcome.next (receiveFrame_unready (p := .downstream) hf hr)
  · exact congrArg Host.Outcome.next (receiveFrame_unready (p := .upstream) hf hr)
  · exact ⟨rfl, rfl⟩

/-! ## Misdirected frames -/

theorem routeUp_discard {f : Frame} (h : f.src ≠ 0#6 ∨ f.proxy = true ∨ f.dest = 0#6 ∨
    (f.dest = 63#6 ∧ f.kind ∉ [Kind.set, .get, .go, .clear]) ∨
    (f.dest ≠ 63#6 ∧ f.kind ∉ [Kind.note, .ask, .answer])) : routeUp f = .discard := by
  unfold routeUp
  simp only [List.mem_cons, List.not_mem_nil, or_false] at h
  grind

theorem routeDown_discard {f : Frame} (h : f.src = 0#6 ∨ f.src = 63#6 ∨ f.proxy = true ∨
    (f.dest = 0#6 ∧ f.kind ∉ [Kind.note, .ask, .alert, .answer]) ∨
    (f.dest = 63#6 ∧ f.kind ≠ .orderDone) ∨ (f.dest ≠ 0#6 ∧ f.dest ≠ 63#6)) : routeDown f = .discard := by
  unfold routeDown
  simp only [List.mem_cons, List.not_mem_nil, or_false] at h
  grind

theorem isTraffic_of_message {f : Frame} (h0 : f.src ≠ 0#6) (h63 : f.src ≠ 63#6) (hp : f.proxy = false)
    (hd : f.dest = 0#6) (hk : f.kind ∈ [Kind.note, .ask, .alert, .answer]) : isTraffic f = true := by
  unfold isTraffic routeDown
  simp only [List.mem_cons, List.not_mem_nil, or_false] at hk
  obtain hk | hk | hk | hk := hk <;> simp [h0, h63, hp, hd, hk]

/-- The first element that passes a test, and the list without it. -/
theorem first_of_split {α : Type} {P : α → Bool} {l before after : List α} {a : α} (hl : l = before ++ a :: after)
    (hb : ∀ x ∈ before, P x = false) (ha : P a = true) : l.find? P = some a ∧ l.eraseP P = before ++ after := by
  have hnone : ∀ x ∈ before, ¬ P x = true := fun x hx => by simp [hb x hx]
  constructor
  · rw [hl, List.find?_append, List.find?_eq_none.2 hnone]
    simp [ha]
  · rw [hl, List.eraseP_append_right _ hnone, List.eraseP_cons_of_pos ha]

/-- The first frame that may be taken past waiting traffic, and what its taking leaves (R147, R162). -/
theorem pastTraffic_split {s : State} {f : Frame} {before after : List Frame} (hi : s.down.input = before ++ f :: after)
    (hl : s.ldr.loading = none) (hb : ∀ g ∈ before, isTraffic g = true) (hf : isTraffic f = false) :
    s.pastTraffic = some f ∧ popPastTraffic s = s.withDown { s.down with input := before ++ after } := by
  obtain ⟨hfind, herase⟩ := first_of_split (P := fun g => !isTraffic g) hi (fun g hg => by simp [hb g hg]) (by simp [hf])
  constructor
  · rw [State.pastTraffic, if_neg (by simp [State.isLoading, hl]), hfind]
  · rw [popPastTraffic, herase]

/-- Settles O11. -/
theorem misdirectedFramesAreDiscarded : Obligations.MisdirectedFramesAreDiscarded := by
  refine ⟨fun s f rest hi hl hu h => ?_, fun s f rest hi hl hu => ?_, fun s f before after hi hl hb h => ?_⟩
  · refine congrArg Host.Outcome.next ?_
    simp only [hi]
    exact if_pos ⟨hu, isLoading_false.2 hl, routeUp_discard h⟩
  · refine congrArg Host.Outcome.next ?_
    simp only [hi]
    exact if_pos ⟨hu, isLoading_false.2 hl⟩
  · have hd := routeDown_discard h
    obtain ⟨hp, hpop⟩ := pastTraffic_split hi hl (fun g hg => by
      obtain ⟨h1, h2, h3, h4, h5⟩ := hb g hg
      exact isTraffic_of_message h1 h2 h3 h4 h5) (by simp [isTraffic, hd])
    refine congrArg Host.Outcome.next ?_
    simp only [hp, hpop]
    exact if_pos hd

/-! ## The output arbiter -/

/-- The arbiter fills a place of a FIFO that has one (R165). -/
theorem exec_fill {p : PortId} {s : State} (hl : (s.port p).output.length < 4) (hu : p = .upstream → s.dom.linkUp = true) :
    exec (.outputArbiterFill p) s = .next (fillOutput p s) :=
  congrArg Host.Outcome.next (if_pos ⟨hl, hu⟩)

theorem fillOutput_own {p : PortId} {s : State} {f : Frame} {rest : List Frame} (h : (s.port p).own = f :: rest) :
    fillOutput p s = pushOutput p f (s.withPort p { s.port p with own := rest }) := by
  simp only [fillOutput, h]

/-- With no own frame the first record bound for the port goes out, and leaves the Hold Queue (R144). -/
theorem fillOutput_record {p : PortId} {s : State} {r : HoldRecord} {before after : List HoldRecord}
    (ho : (s.port p).own = []) (hh : s.gate.hold = before ++ r :: after) (hr : r.goesTo p = true)
    (hb : ∀ x ∈ before, x.goesTo p = false) :
    fillOutput p s = pushOutput p { r.frame with proxy := false } (s.withGate ⟨before ++ after,
      if r.up then s.gate.permit && (before ++ after).any fun x => x.up else s.gate.permit⟩) := by
  obtain ⟨hfind, herase⟩ := first_of_split hh hb hr
  simp only [fillOutput, ho, hfind, takeRecord, State.withHold, herase]
  cases r.up <;> rfl

theorem fillOutput_forwarded {p : PortId} {s : State} {f : Frame} (ho : (s.port p).own = [])
    (hh : ∀ x ∈ s.gate.hold, x.goesTo p = false) (hf : (s.port p).forwarded = some f) :
    fillOutput p s = pushOutput p f (s.withPort p { s.port p with forwarded := none }) := by
  have hnone : (s.gate.hold.find? fun r => r.goesTo p) = none := List.find?_eq_none.2 fun x hx => by simp [hh x hx]
  simp only [fillOutput, ho, hnone, hf]

theorem goesTo_downstream (r : HoldRecord) : r.goesTo .downstream = (r.releasable && !r.up) := by
  unfold HoldRecord.goesTo
  rw [(rfl : (PortId.downstream == PortId.upstream) = false)]
  cases r.up <;> rfl

theorem goesTo_upstream (r : HoldRecord) : r.goesTo .upstream = (r.releasable && r.up) := by
  unfold HoldRecord.goesTo
  rw [(rfl : (PortId.upstream == PortId.upstream) = true)]
  cases r.up <;> rfl

theorem not_goesTo_downstream {r : HoldRecord} (h : r.up = true ∨ r.releasable = false) : r.goesTo .downstream = false := by
  obtain h | h := h <;> simp [goesTo_downstream, h]

theorem not_goesTo_upstream {r : HoldRecord} (h : r.up = false ∨ r.releasable = false) : r.goesTo .upstream = false := by
  obtain h | h := h <;> simp [goesTo_upstream, h]

/-- Settles O12. -/
theorem arbiterFillsInOrder : Obligations.ArbiterFillsInOrder := by
  have down : PortId.downstream ≠ .upstream := by simp
  refine ⟨fun s f rest hl ho => ?_, fun s f rest hl hu ho => ?_, fun s r before after hl ho hh hup hrel hb => ?_,
    fun s r before after hl hu ho hh hup hrel hb => ?_, fun s f hl ho hh hf => ?_, fun s f hl hu ho hh hf => ?_⟩
  · exact (exec_fill (p := .downstream) hl fun h => absurd h down).trans
      (congrArg Host.Outcome.next (fillOutput_own (p := .downstream) ho))
  · exact (exec_fill (p := .upstream) hl fun _ => hu).trans
      (congrArg Host.Outcome.next (fillOutput_own (p := .upstream) ho))
  · rw [exec_fill (p := .downstream) hl fun h => absurd h down, fillOutput_record (p := .downstream) ho hh
      (by rw [goesTo_downstream, hrel, hup]; rfl) fun x hx => not_goesTo_downstream (hb x hx), if_neg (by simp [hup])]
    rfl
  · rw [exec_fill (p := .upstream) hl fun _ => hu, fillOutput_record (p := .upstream) ho hh
      (by rw [goesTo_upstream, hrel, hup]; rfl) fun x hx => not_goesTo_upstream (hb x hx), if_pos hup]
    rfl
  · rw [exec_fill (p := .downstream) hl fun h => absurd h down, fillOutput_forwarded (p := .downstream) ho
      (fun x hx => not_goesTo_downstream (hh x hx)) hf]
    rfl
  · rw [exec_fill (p := .upstream) hl fun _ => hu, fillOutput_forwarded (p := .upstream) ho
      (fun x hx => not_goesTo_upstream (hh x hx)) hf]
    rfl

end Sys2Proof.Machine
end

section
/-! SUPPORT. The layouts of section 10.10: each field's byte is read back as the field. The statement O54 is settled here. -/

namespace Sys2Proof.Machine

/-! ## Bytes of single fields -/

theorem toNat_byteOf {n : Nat} (h : n < 256) : (byteOf n).toNat = n := by
  rw [byteOf, BitVec.toNat_ofNat]
  exact Nat.mod_eq_of_lt h

theorem domainOfByte_byteOfDomain (d : Option Domain) : domainOfByte (byteOfDomain d) = some d := by
  revert d
  decide

theorem domainOfByte_byteOf (d : Domain) : domainOfByte (byteOf d.val) = some (some d) :=
  domainOfByte_byteOfDomain (some d)

theorem ordState_ofByte_code (t : OrdState) : OrdState.ofByte (byteOf t.code) = some t := by cases t <;> rfl

theorem doneOfByte_byteOfDone (x : Option OrdState) : doneOfByte (byteOfDone x) = some x := by
  cases x with
  | none => rfl
  | some t => cases t <;> rfl

theorem pgOfByte_optByte (l : Option PgLine) : pgOfByte (optByte (l.map Fin.val)) = some l := by
  revert l
  decide

theorem agentOfByte_byteOfAgent {a : Option Addr} (h : ∀ x, a = some x → x ≠ 0#6 ∧ x ≠ 63#6) :
    agentOfByte (byteOfAgent a) = some a := by
  have hall : ∀ x : Addr, x ≠ 0#6 ∧ x ≠ 63#6 → agentOfByte (byteOfAgent (some x)) = some (some x) := by decide
  cases a with
  | none => rfl
  | some x => exact hall x (h x rfl)

theorem guardOfBytes_bytesOfGuard (g : Guard) : ∃ form source, bytesOfGuard g = [form, source] ∧
    guardOfBytes form source = some g := by
  cases g with
  | always => exact ⟨_, _, rfl, rfl⟩
  | armed x | notArmed x | reason x | notReason x =>
    refine ⟨_, _, rfl, ?_⟩
    revert x
    decide

/-! ## The step record -/

/-- Byte 0 of a step record from its fields (section 10.10). -/
def stepFlags (action : Nat) (join rev : Bool) (policy : FailPolicy) : Byte :=
  byteOf (action * 64 + (if join then 32 else 0) + (if rev then 16 else 0) + (match policy with | .abort => 0 | .continue => 8))

theorem stepFlags_fields (join rev : Bool) (policy : FailPolicy) {a : Nat} (ha : a < 4) :
    let b := stepFlags a join rev policy
    (b.extractLsb' 6 2).toNat = a ∧ bit b 5 = join ∧ bit b 4 = rev ∧
      (if bit b 3 then FailPolicy.continue else .abort) = policy := by
  interval_cases a <;> cases policy <;> (revert join rev; decide)

theorem stepByte0_fields (r : StepRecord) (rev : Bool) {a : Nat} (ha : a < 4) :
    ((stepByte0 a r rev).extractLsb' 6 2).toNat = a ∧ bit (stepByte0 a r rev) 5 = r.join ∧
      bit (stepByte0 a r rev) 4 = rev ∧ (if bit (stepByte0 a r rev) 3 then FailPolicy.continue else .abort) = r.policy :=
  stepFlags_fields r.join rev r.policy ha

theorem pairDone_bytesOfPair (p : Option (Domain × Option OrdState)) :
    ∃ d st, domainOfByte (bytesOfPair p).1 = some d ∧ doneOfByte (bytesOfPair p).2 = some st ∧ pairDone d st = some p := by
  refine ⟨p.map Prod.fst, p.bind Prod.snd, domainOfByte_byteOfDomain _, doneOfByte_byteOfDone _, ?_⟩
  cases p <;> rfl

theorem level_byteOfBool (b : Bool) : (byteOfBool b).toNat < 2 ∧ (byteOfBool b == 1#8) = b := by
  cases b <;> exact ⟨by decide, rfl⟩

theorem stepOfBytes_bytesOfStep (r : StepRecord) : stepOfBytes (bytesOfStep r) = some r := by
  obtain ⟨form, source, hg, hgo⟩ := guardOfBytes_bytesOfGuard r.guard
  have fin : ∀ (b0 dom target level done : Byte) (a : Nat) (rev : Bool), a < 4 → b0 = stepByte0 a r rev →
      actionOfBytes b0 dom target level done = some r.action →
      stepOfBytes [b0, dom, target, level, done, r.code, form, source] = some r := fun b0 dom target level done a rev ha hb h => by
    obtain ⟨_, hj, _, hp⟩ := stepByte0_fields r rev ha
    subst hb
    simp only [stepOfBytes, h, hgo, hj, hp]
  cases haction : r.action with
  | order d t rev =>
    obtain ⟨hk, _, hr, _⟩ := stepByte0_fields r rev (a := 0) (by decide)
    simp only [bytesOfStep, haction, hg]
    refine fin _ _ _ _ _ 0 rev (by decide) rfl ?_
    simp only [actionOfBytes, domainOfByte_byteOf, hk, ordState_ofByte_code, hr, haction]
    rfl
  | line p l high rev =>
    obtain ⟨hk, _, hr, _⟩ := stepByte0_fields r rev (a := 1) (by decide)
    obtain ⟨d, st, hd, hst, hp⟩ := pairDone_bytesOfPair p
    obtain ⟨hlow, hlevel⟩ := level_byteOfBool high
    have hl : (byteOf l.val).toNat = l.val := toNat_byteOf (by omega)
    simp only [bytesOfStep, haction, hg]
    refine fin _ _ _ _ _ 1 rev (by decide) rfl ?_
    simp only [actionOfBytes, hd, hst, hk, hp, hl, hr, hlow, hlevel, haction]
    simp
  | awaitGood d a done =>
    obtain ⟨hk, _, hr, _⟩ := stepByte0_fields r false (a := 2) (by decide)
    simp only [bytesOfStep, haction, hg]
    refine fin _ _ _ _ _ 2 false (by decide) rfl ?_
    simp only [actionOfBytes, domainOfByte_byteOf, doneOfByte_byteOfDone, hk, hr, haction]
    cases a <;> simp
  | delay p =>
    obtain ⟨hk, _, hr, _⟩ := stepByte0_fields r false (a := 3) (by decide)
    obtain ⟨d, st, hd, hst, hp⟩ := pairDone_bytesOfPair p
    simp only [bytesOfStep, haction, hg]
    refine fin _ _ _ _ _ 3 false (by decide) rfl ?_
    simp only [actionOfBytes, hd, hst, hk, hp, hr, haction]
    rfl

/-! ## The other records -/

theorem dirOfBytes_bytesOfDir {e : DirEntry} (h1 : e.first ≤ 127) (h2 : e.count ≤ 32) (h3 : e.first + e.count ≤ 128)
    (h4 : e.commit ≤ e.count) : dirOfBytes (bytesOfDir e) = some e := by
  simp only [bytesOfDir, dirOfBytes, toNat_byteOf (show e.first < 256 by omega), toNat_byteOf (show e.count < 256 by omega),
    toNat_byteOf (show e.commit < 256 by omega)]
  rw [if_pos ⟨h1, h2, h3, h4⟩]

/-- The flags of a domain configuration record's third byte (section 10.10). -/
def domainFlags (required controller : Bool) (policy : FaultPolicy) (on idle retain : Bool) : Byte :=
  byteOf ((if required then 128 else 0) + (if controller then 64 else 0)
    + (match policy with | .report => 0 | .shutdown => 32)
    + (if on then 4 else 0) + (if idle then 2 else 0) + (if retain then 1 else 0))

theorem domainFlags_fields (required controller : Bool) (policy : FaultPolicy) (on idle retain : Bool) :
    let b := domainFlags required controller policy on idle retain
    bit b 7 = required ∧ bit b 6 = controller ∧ (if bit b 5 then .shutdown else .report) = policy ∧ bit b 3 = false ∧
      bit b 2 = on ∧ bit b 1 = idle ∧ bit b 0 = retain := by
  cases policy <;> (revert required controller on idle retain; decide)

theorem domainOfBytes_bytesOfDomain {c : DomainConfig} (b : Bool) (h : ∀ a, c.agent = some a → a ≠ 0#6 ∧ a ≠ 63#6) :
    domainOfBytes (bytesOfDomain c b) = some ⟨c, b⟩ := by
  obtain ⟨h7, h6, h5, h3, h2, h1, h0⟩ := domainFlags_fields c.required b c.policy c.monOn c.monIdle c.monRetain
  have hb : bytesOfDomain c b = [byteOfAgent c.agent, optByte (c.pgLine.map Fin.val),
    domainFlags c.required b c.policy c.monOn c.monIdle c.monRetain, c.blanking] := rfl
  rw [hb]
  simp only [domainOfBytes, agentOfByte_byteOfAgent h, pgOfByte_optByte, h7, h6, h5, h3, h2, h1, h0]
  rfl

/-- The flags of a match entry's first byte (section 10.10). -/
theorem matchFlags_fields (valid test signed outside : Bool) (run : Nat) :
    let b := byteOf ((if valid then 128 else 0) + (if test then 64 else 0) + (if signed then 32 else 0)
      + (if outside then 16 else 0) + run % 8)
    bit b 7 = valid ∧ bit b 6 = test ∧ bit b 5 = signed ∧ bit b 4 = outside := by
  have hr : run % 8 < 8 := Nat.mod_lt _ (by decide)
  generalize run % 8 = n at hr
  interval_cases n <;> (revert valid test signed outside; decide)

theorem matchKind_byte {k : Option Kind} (h : ∀ x, k = some x → x = .note ∨ x = .ask ∨ x = .alert) :
    matchKindOfByte (optByte (k.map Kind.code)) = some k := by
  cases k with
  | none => rfl
  | some x => obtain rfl | rfl | rfl := h x rfl <;> rfl

/-- The qualifier and the offset share a byte. -/
theorem qualifierByte_fields {q : Nat} (o : Fin 32) (h1 : 1 ≤ q) (h8 : q ≤ 8) :
    (byteOf ((q - 1) * 32 + o.val)).extractLsb' 0 5 = BitVec.ofFin o ∧
      ((byteOf ((q - 1) * 32 + o.val)).extractLsb' 5 3).toNat + 1 = q := by
  interval_cases q <;> (revert o; decide)

theorem actionByte_fields (a : MatchAction) (x : BitVec 6) :
    MatchAction.ofCode ((BitVec.ofNat 2 a.code ++ x).extractLsb' 6 2).toNat = a ∧
      (BitVec.ofNat 2 a.code ++ x).extractLsb' 0 6 = x := by
  rw [extract_append_high, extract_append_low]
  cases a <;> exact ⟨rfl, rfl⟩

theorem matchOfBytes_bytesOfMatch {e : MatchEntry} (ha : ∀ a, e.agent = some a → a ≠ 0#6 ∧ a ≠ 63#6)
    (hk : ∀ k, e.kind = some k → k = .note ∨ k = .ask ∨ k = .alert) (hl : e.lsb ≤ e.msb) (h1 : 1 ≤ e.qualifier)
    (h8 : e.qualifier ≤ 8) (hs : e.action = .wake ∨ e.action = .wakeKeep → 10 ≤ e.source.toNat ∧ e.source.toNat ≤ 15) :
    matchOfBytes (bytesOfMatch e) = some { e with run := 0 } := by
  obtain ⟨b7, b6, b5, b4⟩ := matchFlags_fields e.valid e.fieldTest e.signed e.outside e.run
  obtain ⟨q0, q5⟩ := qualifierByte_fields e.offset h1 h8
  obtain ⟨a6, a0⟩ := actionByte_fields e.action e.source
  have hm : (byteOf e.msb.val).toNat = e.msb.val := toNat_byteOf (by omega)
  have hlsb : (byteOf e.lsb.val).toNat = e.lsb.val := toNat_byteOf (by omega)
  have hsource : e.action.wakes = false ∨ (messageSource e.source).isSome := by
    cases hact : e.action with
    | drop | keep => exact .inl rfl
    | wake | wakeKeep =>
      obtain ⟨h10, h15⟩ := hs (by simp [hact])
      exact .inr (by simp [messageSource, h10, Nat.lt_succ_of_le h15])
  simp only [bytesOfMatch, bytes32, List.cons_append, List.nil_append, matchOfBytes, agentOfByte_byteOfAgent ha,
    matchKind_byte hk, hm, hlsb, a6, a0, b7, b6, b5, b4, q0, q5, word32_bytes32]
  simp [hsource, hl]

/-- Settles O54: the layouts, record by record. -/
theorem recordBytesReadBack : Obligations.RecordBytesReadBack :=
  ⟨stepOfBytes_bytesOfStep, fun _ h1 h2 h3 h4 => dirOfBytes_bytesOfDir h1 h2 h3 h4,
    fun _ b h => domainOfBytes_bytesOfDomain b h, fun _ ha hk hl h1 h8 hs => matchOfBytes_bytesOfMatch ha hk hl h1 h8 hs⟩

end Sys2Proof.Machine
end

section
/-! SUPPORT. The SET requests (R26, R29, R23, R18, R172, R117, R121, R83, R171): checks and writes of each object. The statements
O15 to O17, O19, O20 and O22 to O24 are settled here. -/

namespace Sys2Proof.Machine

variable {s : State} {f : Frame}

/-! ## Taking a SET -/

section
variable (h : s.Waiting f) (hk : f.kind = .set)
include h hk

theorem serveSet_busy {α : Type} {selector : Byte} {rest : List Byte} (hp : f.payload = selector :: rest)
    (ht : s.eng.platform.transitional = true) (check : State → List Byte → Except ResultCode α) (write : α → State → State) :
    serveSet selector check write s = s.answered f [1#8] := by
  rw [h.serveSet selector check write hk rest hp, if_pos ht]

variable (ht : s.eng.platform.transitional = false)
include ht

theorem serveSet_ok {α : Type} {selector : Byte} {rest : List Byte} (hp : f.payload = selector :: rest)
    {check : State → List Byte → Except ResultCode α} (write : α → State → State) {w : α}
    (hc : check s f.payload = .ok w) : serveSet selector check write s = write w (s.answered f [0#8]) := by
  rw [h.serveSet selector check write hk rest hp, if_neg (by simp [ht]), hc]

theorem serveSet_error {α : Type} {selector : Byte} {rest : List Byte} (hp : f.payload = selector :: rest)
    {check : State → List Byte → Except ResultCode α} (write : α → State → State) {code : ResultCode}
    (hc : check s f.payload = .error code) : serveSet selector check write s = s.answered f [code.code] := by
  rw [h.serveSet selector check write hk rest hp, if_neg (by simp [ht]), hc]

end

/-! ## Objects with items -/

theorem decodeAll_none {α : Type} {decode : List Byte → Option α} {items : List (List Byte)}
    (h : ∃ x ∈ items, decode x = none) : decodeAll decode items = none := by
  induction items with
  | nil => obtain ⟨x, hx, _⟩ := h; exact absurd hx (List.not_mem_nil)
  | cons a l ih =>
    obtain ⟨x, hx, hn⟩ := h
    obtain rfl | hx := List.mem_cons.1 hx
    · simp only [decodeAll, hn]
    · simp only [decodeAll, ih ⟨x, hx, hn⟩]
      cases decode a <;> rfl

theorem setItems_badSelect {size limit lowest highest : Nat} {selector first count : Byte} {data : List Byte}
    (hl : data.length = size * count.toNat)
    (hbad : count.toNat = 0 ∨ limit < count.toNat ∨ first.toNat < lowest ∨ highest < first.toNat ∨
      highest + 1 < first.toNat + count.toNat) :
    setItems size limit lowest highest ([selector, first, count] ++ data) = .error .badSelect := by
  simp only [List.cons_append, List.nil_append, setItems, hl]
  rw [if_neg (by simp), if_pos hbad]

section
variable {α β : Type} {size limit lowest highest : Nat} {decode : List Byte → Option α} {write : Nat → List α → SetWrite}

theorem checkItems_badSelect {selector first count : Byte} {data : List Byte} (hl : data.length = size * count.toNat)
    (hbad : count.toNat = 0 ∨ limit < count.toNat ∨ first.toNat < lowest ∨ highest < first.toNat ∨
      highest + 1 < first.toNat + count.toNat) :
    checkItems size limit lowest highest decode write ([selector, first, count] ++ data) = .error .badSelect := by
  simp only [checkItems, setItems_badSelect hl hbad]

section
variable {first : Nat} (selector : Byte) {bytes : β → List Byte} (hb : ∀ a, (bytes a).length = size) (l : List β)
  (h1 : 1 ≤ l.length) (h2 : l.length ≤ limit) (h3 : lowest ≤ first) (h4 : first + l.length ≤ highest + 1)
  (h5 : first < 256) (h6 : l.length < 256)
include hb h1 h2 h3 h4 h5 h6

theorem checkItems_ok_of_items (g : β → α) (hd : ∀ a ∈ l, decode (bytes a) = some (g a)) :
    checkItems size limit lowest highest decode write
      ([selector, BitVec.ofNat 8 first, BitVec.ofNat 8 l.length] ++ l.flatMap bytes) = .ok (write first (l.map g)) := by
  simp only [checkItems, setItems_of_items selector bytes hb l h1 h2 h3 h4 h5 h6, decodeAll_map_to decode bytes g l hd]

theorem checkItems_badEntry (hd : ∃ a ∈ l, decode (bytes a) = none) :
    checkItems size limit lowest highest decode write
      ([selector, BitVec.ofNat 8 first, BitVec.ofNat 8 l.length] ++ l.flatMap bytes) = .error .badEntry := by
  obtain ⟨a, ha, hn⟩ := hd
  simp only [checkItems, setItems_of_items selector bytes hb l h1 h2 h3 h4 h5 h6,
    decodeAll_none ⟨bytes a, List.mem_map.2 ⟨a, ha, rfl⟩, hn⟩]

end
end

theorem byte_eq_zero_iff {b : Byte} : b = 0#8 ↔ b.toNat = 0 := by simp [← BitVec.toNat_inj]

/-! ## Step records -/

theorem bytesOfStep_length (r : StepRecord) : (bytesOfStep r).length = 8 := by
  obtain ⟨form, source, hg, _⟩ := guardOfBytes_bytesOfGuard r.guard
  unfold bytesOfStep
  rw [hg]
  cases r.action <;> rfl

/-- Settles O15. -/
theorem setStepStoreWritesItsRecords : Obligations.SetStepStoreWritesItsRecords := by
  refine ⟨fun s f first rs h hk ht h1 h3 hn hp => ?_, fun s f first count data h hk ht hp hl hbad => ?_⟩
  · have hc : checkSteps s f.payload = .ok (.steps first rs) := by
      rw [hp, checkSteps, checkItems_ok_of_items 0x01#8 bytesOfStep_length rs h1 h3 (Nat.zero_le _) (by omega) (by omega)
        (by omega) id fun r _ => stepOfBytes_bytesOfStep r, List.map_id]
    exact ⟨_, congrArg Host.Outcome.next (serveSet_ok h hk ht hp writeAndTest hc),
      fun i hi => writeFrom_getElem? s.eng.store first rs i hi⟩
  · have hc : checkSteps s f.payload = .error .badSelect := by
      rw [hp]
      refine checkItems_badSelect hl ?_
      obtain h | h | h := hbad
      · exact .inr (.inr (.inr (.inl h)))
      · exact .inl (byte_eq_zero_iff.1 h)
      · exact .inr (.inr (.inr (.inr h)))
    exact congrArg Host.Outcome.next (serveSet_error h hk ht hp writeAndTest hc)

theorem domainOfByte_cases (b : Byte) : (b = 0xFF#8 ∧ domainOfByte b = some none) ∨
    (b ≠ 0xFF#8 ∧ b.toNat < 12 ∧ ∃ d, domainOfByte b = some (some d)) ∨
    (b ≠ 0xFF#8 ∧ 11 < b.toNat ∧ domainOfByte b = none) := by
  by_cases hb : b = 0xFF#8
  · exact .inl ⟨hb, by simp [domainOfByte, hb]⟩
  · by_cases hn : b.toNat < 12
    · exact .inr (.inl ⟨hb, hn, ⟨⟨b.toNat, hn⟩, by simp [domainOfByte, hb, hn]⟩⟩)
    · exact .inr (.inr ⟨hb, by omega, by simp [domainOfByte, hb, hn]⟩)

theorem ordState_ofByte_isSome (b : Byte) : (OrdState.ofByte b).isSome = true ↔ b.toNat < 4 := by
  unfold OrdState.ofByte
  split <;> simp_all
  omega

theorem doneOfByte_cases {b : Byte} (h : b.toNat < 4 ∨ b = 0xFF#8) : (b = 0xFF#8 ∧ doneOfByte b = some none) ∨
    (b ≠ 0xFF#8 ∧ ∃ t, doneOfByte b = some (some t)) := by
  by_cases hb : b = 0xFF#8
  · exact .inl ⟨hb, by simp [doneOfByte, hb]⟩
  · obtain ⟨t, ht⟩ := Option.isSome_iff_exists.1 ((ordState_ofByte_isSome b).2 (h.resolve_right hb))
    exact .inr ⟨hb, t, by simp [doneOfByte, hb, ht]⟩

theorem guardOfBytes_isSome {form source : Byte} (hf : form.toNat < 5) (hs : form = 0#8 ∨ source.toNat < 16) :
    ∃ g, guardOfBytes form source = some g := by
  rw [← Option.isSome_iff_exists]
  unfold guardOfBytes
  obtain rfl | hs := hs
  · rfl
  · generalize form.toNat = n at hf
    interval_cases n <;> simp [hs]

/-- When the action's bytes are taken, domain and state on completion being coded (R29). -/
theorem actionOfBytes_isSome {b0 dom target level done : Byte} {d : Option Domain} {st : Option OrdState}
    (hd : domainOfByte dom = some d) (hst : doneOfByte done = some st) :
    (actionOfBytes b0 dom target level done).isSome = true ↔
      (b0.toNat / 64 = 0 ∧ d.isSome = true ∧ st = none ∧ target.toNat < 4) ∨
      (b0.toNat / 64 = 1 ∧ (d.isSome = true ∨ st = none) ∧ target.toNat < 16 ∧ level.toNat < 2) ∨
      (b0.toNat / 64 = 2 ∧ d.isSome = true ∧ target.toNat < 2 ∧ bit b0 4 = false) ∨
      (b0.toNat / 64 = 3 ∧ (d.isSome = true ∨ st = none) ∧ bit b0 4 = false) := by
  have hk : (b0.extractLsb' 6 2).toNat = b0.toNat / 64 := by
    rw [BitVec.extractLsb'_toNat, Nat.shiftRight_eq_div_pow]
    omega
  have hlt : b0.toNat / 64 < 4 := by omega
  simp only [actionOfBytes, hd, hst, hk]
  generalize b0.toNat / 64 = a at hlt
  have ht := ordState_ofByte_isSome target
  interval_cases a
  · cases d <;> cases st <;> cases hto : OrdState.ofByte target <;> simp_all
  · cases d <;> cases st <;> simp [pairDone] <;> split <;> simp_all
  · cases d <;> simp
  · cases d <;> cases st <;> simp [pairDone]

/-- The eight cases of R29 in which a step record is refused. -/
def StepRefused (b0 dom target level done : Byte) : Prop :=
  (2 ≤ b0.toNat / 64 ∧ b0.getLsbD 4 = true) ∨
  ((b0.toNat / 64 = 0 ∨ b0.toNat / 64 = 2) ∧ dom = 0xFF#8) ∨
  (b0.toNat / 64 = 0 ∧ done ≠ 0xFF#8) ∨
  (dom = 0xFF#8 ∧ done ≠ 0xFF#8) ∨
  (b0.toNat / 64 = 0 ∧ 3 < target.toNat) ∨
  (b0.toNat / 64 = 1 ∧ (15 < target.toNat ∨ 1 < level.toNat)) ∨
  (b0.toNat / 64 = 2 ∧ 1 < target.toNat) ∨
  (dom ≠ 0xFF#8 ∧ 11 < dom.toNat)

theorem stepRefused_iff {b0 dom target level done : Byte} (hdone : done.toNat < 4 ∨ done = 0xFF#8) :
    StepRefused b0 dom target level done ↔ ¬ (actionOfBytes b0 dom target level done).isSome = true := by
  have hlt : b0.toNat / 64 < 4 := by omega
  have hb4 : b0.getLsbD 4 = bit b0 4 := rfl
  unfold StepRefused
  obtain ⟨hd, hdom⟩ | ⟨hd, hd12, d, hdom⟩ | ⟨hd, hd12, hdom⟩ := domainOfByte_cases dom
  · obtain ⟨hst, hdo⟩ | ⟨hst, t, hdo⟩ := doneOfByte_cases hdone
    all_goals
      rw [actionOfBytes_isSome hdom hdo, hb4]
      simp only [hd, hst]
      generalize b0.toNat / 64 = a at hlt
      interval_cases a <;> cases bit b0 4 <;> simp [hst] <;> omega
  · obtain ⟨hst, hdo⟩ | ⟨hst, t, hdo⟩ := doneOfByte_cases hdone
    all_goals
      rw [actionOfBytes_isSome hdom hdo, hb4]
      simp only [hd, hst]
      generalize b0.toNat / 64 = a at hlt
      interval_cases a <;> cases bit b0 4 <;> simp [hst, hd] <;> omega
  · simp [hd, hd12, actionOfBytes, hdom]

/-- Settles O16: the action decides, and each of its kinds has its own cases. -/
theorem stepRecordsAreRefusedInEightCases : Obligations.StepRecordsAreRefusedInEightCases := by
  intro s f first b0 dom target level done code form source h hk ht hfirst hp hdone hform hsource
  obtain ⟨g, hg⟩ := guardOfBytes_isSome hform hsource
  have he : (BitVec.ofNat 8 first).toNat = first := toNat_byteOf (by omega)
  have hc : checkSteps s f.payload = match stepOfBytes [b0, dom, target, level, done, code, form, source] with
      | some r => .ok (.steps first [r])
      | none => .error .badEntry := by
    rw [hp]
    simp only [checkSteps, checkItems, setItems, he]
    simp [chunks, decodeAll, show ¬ 127 < first by omega, show ¬ 128 < first + 1 by omega]
    cases stepOfBytes [b0, dom, target, level, done, code, form, source] <;> rfl
  have hr := stepRefused_iff (b0 := b0) (dom := dom) (target := target) (level := level) hdone
  refine ⟨fun hbad => ?_, fun hgood => ?_⟩
  · have hnone : actionOfBytes b0 dom target level done = none := by simpa using hr.1 hbad
    have hcheck : checkSteps s f.payload = .error .badEntry := by
      rw [hc]
      simp only [stepOfBytes, hnone]
    exact congrArg Host.Outcome.next (serveSet_error h hk ht hp writeAndTest hcheck)
  · obtain ⟨a, ha⟩ := Option.isSome_iff_exists.1 (Decidable.of_not_not fun hn => hgood (hr.2 hn))
    have hcheck : ∃ r, checkSteps s f.payload = .ok (.steps first [r]) := by
      rw [hc]
      simp only [stepOfBytes, ha, hg]
      exact ⟨_, rfl⟩
    obtain ⟨r, hcheck⟩ := hcheck
    exact ⟨_, congrArg Host.Outcome.next (serveSet_ok h hk ht hp writeAndTest hcheck)⟩

/-! ## Directory, Agent Map and Retained Resume Area -/

theorem bytesOfDir_length (e : DirEntry) : (bytesOfDir e).length = 3 := rfl

theorem dirOfBytes_none {a b c : Byte} (h : 127 < a.toNat ∨ 32 < b.toNat ∨ 128 < a.toNat + b.toNat ∨ b.toNat < c.toNat) :
    dirOfBytes [a, b, c] = none := by
  simp only [dirOfBytes]
  exact if_neg (by omega)

/-- Settles O17. -/
theorem setDirectoryAgentMapAndRetainedAreaWrite : Obligations.SetDirectoryAgentMapAndRetainedAreaWrite := by
  refine ⟨fun s f first es h hk ht h1 hn hv hp => ?_, fun s f first ds h hk ht h1 h29 hf hn hp => ?_,
    fun s f start bs h hk ht h1 h29 hwf hp => ?_, fun s f first count data h hk ht => ?_,
    fun s f first es h hk ht h1 hn hp hbad => ?_⟩
  · have hc : checkDirectory s f.payload = .ok (.directory first es) := by
      rw [hp, checkDirectory, checkItems_ok_of_items 0x02#8 bytesOfDir_length es h1 (by omega) (Nat.zero_le _) (by omega)
        (by omega) (by omega) id fun e he => ?_, List.map_id]
      obtain ⟨e1, e2, e3, e4⟩ := hv e he
      exact dirOfBytes_bytesOfDir e1 e2 e3 e4
    exact ⟨_, congrArg Host.Outcome.next (serveSet_ok h hk ht hp writeAndTest hc),
      fun i hi => writeFrom_getElem? s.eng.directory first es i hi⟩
  · have hmap : ds.map byteOfDomain = ds.flatMap fun d => [byteOfDomain d] := by
      rw [List.map_eq_flatMap]
    have hc : checkAgents s f.payload = .ok (.agents first ds) := by
      rw [hp, hmap, checkAgents, checkItems_ok_of_items 0x05#8 (size := 1)
        (bytes := fun d => [byteOfDomain d]) (fun _ => rfl) ds h1 h29 hf (by omega) (by omega) (by omega)
        id fun d _ => domainOfByte_byteOfDomain d, List.map_id]
    refine ⟨_, congrArg Host.Outcome.next (serveSet_ok h hk ht hp writeAndTest hc), fun a ha1 ha62 => ?_⟩
    refine (writeFrom_getElem? s.dom.agentMap (first - 1) ds (a - 1) (by omega)).trans ?_
    have hidx : a - 1 - (first - 1) = a - first := by omega
    rw [hidx]
    exact if_congr (by omega) rfl rfl
  · have hbytes : bs = bs.flatMap fun b => [b] := by simp
    have hset : setItems 1 29 0 511 f.payload = .ok (start.toNat, bs.map fun b => [b]) := by
      have hs := setItems_of_items (size := 1) (limit := 29) (lowest := 0) (highest := 511) (first := start.toNat) 0x14#8
        (fun b : Byte => [b]) (fun _ => rfl) bs h1 h29 (Nat.zero_le _) (by omega) (by omega) (by omega)
      rw [← hbytes, BitVec.ofNat_toNat, BitVec.setWidth_eq] at hs
      rw [hp]
      exact hs
    have hc : checkRetained s f.payload = .ok (.retained (start.toNat % 64) bs) := by
      simp only [checkRetained, hset]
      rw [hp]
      rfl
    have hp64 : start.toNat % 64 < 64 := Nat.mod_lt _ (by decide)
    have hmod : ∀ i, (start.toNat % 64 + i) % 64 = (start.toNat + i) % 64 := fun i => by omega
    refine ⟨_, congrArg Host.Outcome.next (serveSet_ok h hk ht hp writeAndTest hc), Memory.wf_writeBytes bs hp64 hwf,
      fun i hi => ?_, fun a ha => ?_⟩
    · rw [← hmod]
      exact Memory.read_writeBytes bs hp64 (by omega) hwf i hi
    · exact Memory.read_writeBytes_of_not_mem bs a hp64 hwf fun i hi => by rw [hmod]; exact ha i hi
  · refine ⟨fun hp hl hbad => ?_, fun hp hl hbad => ?_, fun hp hl h1 h29 hf hn hbad => ?_, fun hp hl hbad => ?_⟩
    · have hc : checkDirectory s f.payload = .error .badSelect := by
        rw [hp]
        exact checkItems_badSelect hl (by rw [byte_eq_zero_iff] at hbad; omega)
      exact congrArg Host.Outcome.next (serveSet_error h hk ht hp writeAndTest hc)
    · have hc : checkAgents s f.payload = .error .badSelect := by
        rw [hp]
        exact checkItems_badSelect (by omega) (by simp only [byte_eq_zero_iff] at hbad; omega)
      exact congrArg Host.Outcome.next (serveSet_error h hk ht hp writeAndTest hc)
    · have hc : checkAgents s f.payload = .error .badEntry := by
        obtain ⟨b, hb, hb11, hbff⟩ := hbad
        have hbytes : data = data.flatMap fun b => [b] := by simp
        have hi := checkItems_badEntry (size := 1) (limit := 29) (lowest := 1) (highest := 62) (first := first.toNat)
          (decode := agentMapOfBytes) (write := SetWrite.agents) 0x05#8 (bytes := fun b : Byte => [b]) (fun _ => rfl) data
          (by omega) (by omega) hf (by omega) (by omega) (by omega)
          ⟨b, hb, by simp [agentMapOfBytes, domainOfByte, hbff, show ¬ b.toNat < 12 by omega]⟩
        rw [← hbytes, BitVec.ofNat_toNat, BitVec.setWidth_eq, hl, BitVec.ofNat_toNat, BitVec.setWidth_eq] at hi
        rw [hp]
        exact hi
      exact congrArg Host.Outcome.next (serveSet_error h hk ht hp writeAndTest hc)
    · have hc : checkRetained s f.payload = .error .badSelect := by
        rw [hp]
        simp only [checkRetained, setItems_badSelect (size := 1) (limit := 29) (lowest := 0) (highest := 511)
          (selector := 0x14#8) (show data.length = 1 * count.toNat by omega)
          (show count.toNat = 0 ∨ 29 < count.toNat ∨ first.toNat < 0 ∨ 511 < first.toNat ∨ 511 + 1 < first.toNat + count.toNat
            by rw [byte_eq_zero_iff] at hbad; omega)]
      exact congrArg Host.Outcome.next (serveSet_error h hk ht hp writeAndTest hc)
  · have hc : checkDirectory s f.payload = .error .badEntry := by
      obtain ⟨e, he, hb⟩ := hbad
      rw [hp]
      have h6 : es.length ≤ 8 := by omega
      exact checkItems_badEntry (size := 3) 0x02#8 (bytes := fun e : Byte × Byte × Byte => [e.1, e.2.1, e.2.2])
        (fun _ => rfl) es h1 (by omega) (Nat.zero_le _) (by omega) (by omega) (by omega) ⟨e, he, dirOfBytes_none hb⟩
    exact congrArg Host.Outcome.next (serveSet_error h hk ht hp writeAndTest hc)

/-! ## Match entries -/

theorem bytesOfMatch_length (e : MatchEntry) : (bytesOfMatch e).length = 15 := rfl

theorem writeFrom_one {α : Type} {n : Nat} (v : Vector α n) (i : Fin n) (a : α) : writeFrom v i.val [a] = v.set i a := by
  ext j hj
  simp [writeFrom, Vector.getElem_setIfInBounds, Vector.getElem_set]

theorem agentOfByte_none {b : Byte} (h : b = 0#8 ∨ (62 < b.toNat ∧ b ≠ 0xFF#8)) : agentOfByte b = none := by
  revert b
  decide

theorem matchKindOfByte_none {b : Byte} (h : b ∉ [0#8, 1#8, 5#8, 0xFF#8]) : matchKindOfByte b = none := by
  revert b
  decide

/-- An action byte with a WAKE part that names no message source (R126). -/
theorem actionByte_badSource {b : Byte} (h : 0x80 ≤ b.toNat)
    (hs : (b &&& 0x3F#8).toNat < 10 ∨ 15 < (b &&& 0x3F#8).toNat) :
    (MatchAction.ofCode (b.extractLsb' 6 2).toNat).wakes = true ∧ messageSource (b.extractLsb' 0 6) = none := by
  revert b
  decide

/-- Settles O19. -/
theorem setMatchEntryWritesFieldsAndClearsRun : Obligations.SetMatchEntryWritesFieldsAndClearsRun := by
  refine ⟨fun s f i e h hk ht ha hkind hl h1 h8 hs hp => ?_, fun s f first count data h hk ht hp hl hbad => ?_,
    fun s f first b0 agent kind q msb lsb act bounds h hk ht hfirst hb hp hbad => ?_⟩
  · have hc : checkMatches s f.payload = .ok (.matches i.val [{ e with run := 0 }]) := by
      have hi := checkItems_ok_of_items (size := 15) (limit := 1) (lowest := 0) (highest := 23) (first := i.val)
        (decode := matchOfBytes) (write := SetWrite.matches) 0x06#8 bytesOfMatch_length [e] (by simp) (by simp)
        (Nat.zero_le _) (by simp) (by omega) (by simp) (fun e => { e with run := 0 })
        (fun x hx => by
          obtain rfl := List.mem_singleton.1 hx
          exact matchOfBytes_bytesOfMatch ha hkind hl h1 h8 hs)
      rw [hp]
      exact hi
    refine (congrArg Host.Outcome.next (serveSet_ok h hk ht hp writeAndTest hc)).trans ?_
    rw [← writeFrom_one s.matcher.table i { e with run := 0 }]
    rfl
  · have hc : checkMatches s f.payload = .error .badSelect := by
      rw [hp]
      exact checkItems_badSelect hl (by rw [byte_eq_zero_iff] at hbad; omega)
    exact congrArg Host.Outcome.next (serveSet_error h hk ht hp writeAndTest hc)
  · have hnone : matchOfBytes ([b0, agent, kind, q, msb, lsb] ++ bounds ++ [act]) = none := by
      obtain ⟨x1, x2, x3, x4, x5, x6, x7, x8, rfl⟩ : ∃ x1 x2 x3 x4 x5 x6 x7 x8, bounds = [x1, x2, x3, x4, x5, x6, x7, x8] := by
        match bounds, hb with
        | [x1, x2, x3, x4, x5, x6, x7, x8], _ => exact ⟨_, _, _, _, _, _, _, _, rfl⟩
      simp only [List.cons_append, List.nil_append, matchOfBytes]
      split
      · next a k hagent hkind =>
        split
        · split
          · refine if_neg ?_
            rintro ⟨hle, hsrc⟩
            obtain hx | hx | hx | hx | hx | ⟨hx, hy⟩ := hbad
            · simp [agentOfByte_none (.inl hx)] at hagent
            · simp [agentOfByte_none (.inr hx)] at hagent
            · simp [matchKindOfByte_none hx] at hkind
            · omega
            · omega
            · obtain ⟨hw, hm⟩ := actionByte_badSource hx hy
              rw [hw, hm] at hsrc
              simp at hsrc
          · rfl
        · rfl
      · rfl
    have hc : checkMatches s f.payload = .error .badEntry := by
      have hi := checkItems_badEntry (size := 15) (limit := 1) (lowest := 0) (highest := 23) (first := first.toNat)
        (decode := matchOfBytes) (write := SetWrite.matches) 0x06#8 (bytes := fun _ : Unit =>
          [b0, agent, kind, q, msb, lsb] ++ bounds ++ [act]) (fun _ => by simp [hb]) [()] (by simp) (by simp)
        (Nat.zero_le _) (by simp; omega) (by omega) (by simp) ⟨(), by simp, hnone⟩
      rw [hp]
      simpa [checkMatches] using hi
    exact congrArg Host.Outcome.next (serveSet_error h hk ht hp writeAndTest hc)

end Sys2Proof.Machine
end

section
/-! SUPPORT. The SETs of wake settings, Line Qualifiers, button settings, Wake Timer, safe levels and domain records, and REINIT
(R96, R97, R106, R112, R115, R117, R121, R83, R13, R14, R171). The statements O18 and O20 to O24 are settled here. -/

namespace Sys2Proof.Machine

variable {s : State} {f : Frame}

/-! ## Wake settings -/

/-- The Armed set that a change of the Wake settings leaves with no loading in progress (R98). -/
def State.armedAtRest (s : State) : SourceSet :=
  match s.eng.platform with
  | .rest x => s.armedFor x
  | .working | .entering _ | .unwinding _ | .waking _ | .forcing => s.wake.armed

theorem rearmAtRest_eq (h : s.isLoading = false) : rearmAtRest s = s.withWake { s.wake with armed := s.armedAtRest } := by
  unfold rearmAtRest State.armedAtRest
  cases s.eng.platform
  case rest x => exact if_neg (by simp [h])
  all_goals rfl

theorem clearedCounts_get (w : WakeUnit) (src : Source) :
    w.clearedCounts[src] = if w.suppressed.getLsbD src.val then w.stormCount[src] else 0 := by
  simp [WakeUnit.clearedCounts, hasBit]

theorem clearBit_zero (x : SourceSet) : clearBit x 0 = x &&& 0xFFFE#16 := rfl

theorem setBit_zero (x : SourceSet) : setBit x 0 = x ||| 1#16 := rfl

theorem max_one_byte (b : Byte) : max 1 b.toNat = if b = 0#8 then 1 else b.toNat := by
  split
  · next h => subst h; rfl
  · next h => rw [byte_eq_zero_iff] at h; omega

/-- Settles O20. -/
theorem setWakeSettingsHoldsSourceZero : Obligations.SetWakeSettingsHoldsSourceZero := by
  intro s f e a b c threshold window h hk ht hp
  have hload : s.isLoading = false := isLoading_false.2 h.loaded
  have hc : checkWakeSettings s f.payload = .ok (.wakeSettings (setBit e 0) (clearBit a 0) (clearBit b 0) (clearBit c 0)
      (max 1 threshold.toNat) window) := by
    rw [hp]
    simp only [bytes16, List.cons_append, List.nil_append, checkWakeSettings, word16_bytes16]
  refine ⟨_, congrArg Host.Outcome.next (serveSet_ok h hk ht hp writeAndTest hc), ?_⟩
  have hw : writeAndTest (.wakeSettings (setBit e 0) (clearBit a 0) (clearBit b 0) (clearBit c 0) (max 1 threshold.toNat) window)
      (s.answered f [0#8]) = writeWakeSettings (setBit e 0) (clearBit a 0) (clearBit b 0) (clearBit c 0)
        (max 1 threshold.toNat) window (s.answered f [0#8]) := rfl
  have hwin : restartWindow window (s.answered f [0#8]) = if ticks window = 0 then none else some (ticks window) := by
    simp [restartWindow, State.answered, h.loaded, startTimer]
  rw [hw, writeWakeSettings, rearmAtRest_eq ?_]
  swap
  · exact hload
  refine ⟨rfl, setBit_zero e, clearBit_zero a, clearBit_zero b, clearBit_zero c, max_one_byte threshold, rfl, ?_, ?_, ?_, ?_,
    rfl, rfl, rfl, rfl, rfl⟩
  · rintro ⟨h1, h2⟩
    have hch : ¬ (max 1 threshold.toNat ≠ s.wake.threshold ∨ window ≠ s.wake.window) :=
      not_or.2 ⟨not_not.2 h1, not_not.2 h2⟩
    have hd : decide (max 1 threshold.toNat ≠ s.wake.threshold ∨ window ≠ s.wake.window) = false := decide_eq_false hch
    exact ⟨if_neg (Bool.not_eq_true _ ▸ hd), if_neg (Bool.not_eq_true _ ▸ hd)⟩
  · intro hch
    have hd : decide (max 1 threshold.toNat ≠ s.wake.threshold ∨ window ≠ s.wake.window) = true := decide_eq_true hch
    refine ⟨fun src => ?_, (if_pos hd).trans hwin⟩
    exact (congrArg (fun v : Vector Nat 16 => v[src]) (if_pos hd)).trans (clearedCounts_get s.wake src)
  · intro hpl
    show State.armedAtRest _ = _
    simp [State.armedAtRest, State.answered, hpl]
  · intro x hpl
    show State.armedAtRest _ = _
    simp only [State.armedAtRest, withWake_eng, show (s.answered f [0#8]).eng.platform = .rest x from hpl]
    cases x <;> rfl

/-! ## Button settings, Wake Timer, safe levels, REINIT -/

/-- Settles O22. -/
theorem setButtonTimerAndSafeLevelsWrite : Obligations.SetButtonTimerAndSafeLevelsWrite := by
  intro s f h hk ht
  refine ⟨fun p o hp => ?_, fun p o hp => ?_, fun x hp => ?_, fun x hp => ?_⟩
  · have hc : checkButton s f.payload = .ok (.buttonSettings p o .stayOff) := by rw [hp]; rfl
    exact congrArg Host.Outcome.next (serveSet_ok h hk ht hp writeAndTest hc)
  · have hc : checkButton s f.payload = .ok (.buttonSettings p o .powerOn) := by rw [hp]; rfl
    exact congrArg Host.Outcome.next (serveSet_ok h hk ht hp writeAndTest hc)
  · have hmin : min 16777215 x.toNat = if 16777215 < x.toNat then 16777215 else x.toNat := by split <;> omega
    have hc : checkWakeTimer s f.payload = .ok (.wakeTimer (if 16777215 < x.toNat then 16777215 else x.toNat)) := by
      rw [hp, ← hmin]
      simp only [bytes32, List.cons_append, List.nil_append, checkWakeTimer, word32_bytes32]
    exact congrArg Host.Outcome.next (serveSet_ok h hk ht hp writeAndTest hc)
  · have hc : checkSafeLevels s f.payload = .ok (.safeLevels x) := by
      rw [hp]
      simp only [bytes16, List.cons_append, List.nil_append, checkSafeLevels, word16_bytes16]
    exact congrArg Host.Outcome.next (serveSet_ok h hk ht hp writeAndTest hc)

section
variable (h : s.Waiting f) (hk : f.kind = .set)
include h hk

theorem reinit_busy {rest : List Byte} (hp : f.payload = 0x16#8 :: rest) (hw : s.eng.platform ≠ .working) :
    exec .reinit s = .next (s.answered f [1#8]) := by
  show execReinit s = _
  unfold execReinit
  rw [h.requestFor .set 0x16#8 hk rest hp (by simp)]
  show Host.Outcome.next (if s.eng.platform ≠ .working then _ else _) = _
  rw [if_pos hw, h.answer]
  rfl

end

/-- Settles O23. -/
theorem reinitIsTakenInWorkingAlone : Obligations.ReinitIsTakenInWorkingAlone := by
  intro s f h hk hp
  refine ⟨fun hw => ?_, reinit_busy h hk hp⟩
  show execReinit s = _
  unfold execReinit
  rw [h.requestFor .set 0x16#8 hk [] hp (by simp)]
  show Host.Outcome.next (if s.eng.platform ≠ .working then _ else if f.payload.length ≠ 1 then _ else _) = _
  rw [if_neg (by simp [hw]), if_neg (by simp [hp])]
  rfl

/-- Settles O24: REINIT is BUSY in every state but WORKING, the other SETs in a transitional state. -/
theorem everySetIsBusyInTransitionalStates : Obligations.EverySetIsBusyInTransitionalStates := by
  intro s f c selector rest h hk hp ht hmem
  have hw : s.eng.platform ≠ .working := fun hw => by simp [hw, Platform.transitional] at ht
  simp only [List.mem_cons, Prod.mk.injEq, List.not_mem_nil, or_false] at hmem
  obtain ⟨rfl, rfl⟩ | ⟨rfl, rfl⟩ | ⟨rfl, rfl⟩ | ⟨rfl, rfl⟩ | ⟨rfl, rfl⟩ | ⟨rfl, rfl⟩ | ⟨rfl, rfl⟩ | ⟨rfl, rfl⟩ |
    ⟨rfl, rfl⟩ | ⟨rfl, rfl⟩ | ⟨rfl, rfl⟩ | ⟨rfl, rfl⟩ := hmem
  case inr.inr.inr.inr.inr.inr.inr.inr.inr.inr.inr => exact reinit_busy h hk hp hw
  all_goals exact congrArg Host.Outcome.next (serveSet_busy h hk hp ht _ _)

theorem endEvent_start_of_railsGood {t : State} (h : t.RailsGood) : endEvent (t, .start s) = t :=
  (endEvent_of_railsGood (p := (t, .start s)) h).trans (reclassify_start s t)

/-! ## Line Qualifiers -/

/-- What a write of Line Qualifiers from an index on makes of them where none latches (R112, R115). -/
structure LinesWritten (first : Nat) (xs : List (LineMode × TimeCode)) (old new : Vector LineQualifier 8) : Prop where
  level  : ∀ k : WakeLine, new[k].level = old[k].level
  inside : ∀ (k : WakeLine) (x : LineMode × TimeCode), first ≤ k.val → xs[k.val - first]? = some x →
    new[k].mode = x.1 ∧ new[k].filter = x.2 ∧ (x.2 ≠ old[k].filter → new[k].qualifying = none)
  others : ∀ k : WakeLine, k.val < first ∨ first + xs.length ≤ k.val → new[k] = old[k]

/-- The qualifier that a write makes, with its mode and filter code (R112). -/
def LineQualifier.rewritten (q : LineQualifier) (x : LineMode × TimeCode) : LineQualifier :=
  { q with mode := x.1, filter := x.2,
           qualifying := if Config.sameFilterCodeKeepsQualification && decide (x.2 = q.filter) then q.qualifying else none }

theorem active_false {q : LineQualifier} (h : q.mode ≠ if q.level then .high else .low) : q.active = false := by
  unfold LineQualifier.active
  cases hm : q.mode <;> cases hl : q.level <;> simp_all

theorem linesWritten_cons {first : Nat} {x : LineMode × TimeCode} {rest : List (LineMode × TimeCode)}
    {old new : Vector LineQualifier 8} (hf : first < 8)
    (h : LinesWritten (first + 1) rest (old.set (⟨first, hf⟩ : WakeLine) (old[(⟨first, hf⟩ : WakeLine)].rewritten x)) new) :
    LinesWritten first (x :: rest) old new where
  level k := by
    rw [h.level k, vector_getElem_set]
    split
    · next hk => subst hk; rfl
    · rfl
  inside k y hk hy := by
    by_cases he : k.val = first
    · obtain rfl : k = ⟨first, hf⟩ := Fin.ext he
      obtain rfl : x = y := by simpa using hy
      rw [h.others ⟨first, hf⟩ (.inl (Nat.lt_succ_self first)), vector_getElem_set, if_pos rfl]
      refine ⟨rfl, rfl, fun hne => if_neg fun hc => hne ?_⟩
      exact of_decide_eq_true (Bool.and_eq_true _ _ ▸ hc).2
    · have hy' : rest[k.val - (first + 1)]? = some y := by
        rw [show k.val - first = k.val - (first + 1) + 1 by omega, List.getElem?_cons_succ] at hy
        exact hy
      have hi := h.inside k y (by omega) hy'
      rwa [vector_getElem_set, if_neg (fun hk' => he (congrArg Fin.val hk'))] at hi
  others k hk := by
    rw [List.length_cons] at hk
    rw [h.others k (by omega), vector_getElem_set, if_neg]
    rintro rfl
    simp only at hk
    omega

/-- Lines none of which is left at the active level of a level mode are written, and nothing latches. -/
theorem writeLines_inactive (left : Departed) (xs : List (LineMode × TimeCode)) (first : Nat) (s : State)
    (hn : first + xs.length ≤ 8)
    (h : ∀ (k : WakeLine) (x : LineMode × TimeCode), first ≤ k.val → xs[k.val - first]? = some x →
      x.1 ≠ (if s.qual.lines[k].level then .high else .low)) :
    ∃ lines, writeLines first xs (s, left) = (s.withQual { s.qual with lines := lines }, left) ∧
      LinesWritten first xs s.qual.lines lines := by
  induction xs generalizing first s with
  | nil => exact ⟨s.qual.lines, rfl, fun _ => rfl, fun k x _ hx => by simp at hx, fun _ _ => rfl⟩
  | cons x rest ih =>
    have hf : first < 8 := by rw [List.length_cons] at hn; omega
    let k0 : WakeLine := ⟨first, hf⟩
    have hx : x.1 ≠ (if s.qual.lines[k0].level then .high else .low) := h k0 x (Nat.le_refl _) (by simp [k0])
    have hact : (s.qual.lines[k0].rewritten x).active = false := active_false hx
    have hstep : writeLine k0 x.1 x.2 (s, left) =
        (s.withQual { s.qual with lines := s.qual.lines.set k0 (s.qual.lines[k0].rewritten x) }, left) :=
      if_neg (Bool.not_eq_true _ ▸ hact)
    obtain ⟨lines, hw, hl⟩ := ih (first + 1)
      (s.withQual { s.qual with lines := s.qual.lines.set k0 (s.qual.lines[k0].rewritten x) })
      (by rw [List.length_cons] at hn; omega) (fun k y hk hy => by
        have hne : k ≠ k0 := fun hk' => by subst hk'; simp [k0] at hk
        have hlev : (s.qual.lines.set k0 (s.qual.lines[k0].rewritten x))[k] = s.qual.lines[k] := by
          rw [vector_getElem_set, if_neg hne]
        show y.1 ≠ if ((s.qual.lines.set k0 (s.qual.lines[k0].rewritten x))[k]).level then .high else .low
        rw [hlev]
        refine h k y (by omega) ?_
        rw [show k.val - first = k.val - (first + 1) + 1 by omega, List.getElem?_cons_succ]
        exact hy)
    refine ⟨lines, ?_, linesWritten_cons hf hl⟩
    show writeLines (first + 1) rest (if h : first < 8 then writeLine ⟨first, h⟩ x.1 x.2 (s, left) else (s, left)) = _
    rw [dif_pos hf, hstep, hw]
    rfl

theorem lineOfBytes_code (x : LineMode × TimeCode) : lineOfBytes [BitVec.ofNat 8 x.1.code, x.2] = some x := by
  obtain ⟨m, c⟩ := x
  cases m <;> rfl

/-- Settles O21. -/
theorem setLineQualifiersWritesSettings : Obligations.SetLineQualifiersWritesSettings := by
  refine ⟨fun s f first xs h hk ht hr h1 hn hp hx => ?_, fun s f first count data h hk ht hp hl hbad => ?_⟩
  · have hc : checkLines s f.payload = .ok (.lineQualifiers first xs) := by
      rw [hp, checkLines, checkItems_ok_of_items (size := 2) 0x0B#8
        (bytes := fun x : LineMode × TimeCode => [BitVec.ofNat 8 x.1.code, x.2]) (fun _ => rfl) xs h1 (by omega)
        (Nat.zero_le _) (by omega) (by omega) (by omega) id fun x _ => lineOfBytes_code x, List.map_id]
    obtain ⟨lines, hw, hlines⟩ := writeLines_inactive (Departed.start (s.answered f [0#8])) xs first (s.answered f [0#8]) hn hx
    refine ⟨lines, ?_, fun k => ⟨hlines.level k, hlines.inside k, hlines.others k⟩⟩
    refine (congrArg Host.Outcome.next (serveSet_ok h hk ht hp writeAndTest hc)).trans (congrArg Host.Outcome.next ?_)
    show endEvent (writeLines first xs (s.answered f [0#8], Departed.start (s.answered f [0#8]))) = _
    rw [hw]
    exact endEvent_start_of_railsGood (hr.congr rfl rfl)
  · have hc : checkLines s f.payload = .error .badSelect := by
      rw [hp]
      exact checkItems_badSelect hl (by rw [byte_eq_zero_iff] at hbad; omega)
    exact congrArg Host.Outcome.next (serveSet_error h hk ht hp writeAndTest hc)

/-! ## Domain records -/

/-- The first member of a sorted list that has a property. -/
theorem find?_of_pairwise {α : Type} {r : α → α → Prop} {p : α → Bool} {l : List α} {i : α} (hl : l.Pairwise r) (hi : i ∈ l)
    (hp : p i = true) (h : ∀ j, r j i → p j = false) : l.find? p = some i := by
  induction l with
  | nil => simp at hi
  | cons a l ih =>
    rw [List.pairwise_cons] at hl
    rw [List.find?_cons]
    obtain rfl | hm := List.mem_cons.1 hi
    · rw [hp]
    · rw [h a (hl.1 i hm)]
      exact ih hl.2 hm

/-- The record at the domain's place carries controller 1. -/
def namesController (first : Nat) (ws : List DomainWrite) (d : Domain) : Bool :=
  decide (first ≤ d.val) && (ws[d.val - first]?).any DomainWrite.controller

theorem controllerAfter_eq (c : Domain) (first : Nat) (ws : List DomainWrite) :
    controllerAfter c first ws = match allDomains.reverse.find? (namesController first ws) with
      | some d => some d
      | none => if first ≤ c.val ∧ c.val < first + ws.length then none else some c := rfl

theorem controllerAfter_named {c holder : Domain} {first : Nat} {ws : List DomainWrite} {w : DomainWrite}
    (hw : ws[holder.val - first]? = some w) (hf : first ≤ holder.val) (hc : w.controller = true)
    (hlast : ∀ j w', holder.val - first < j → ws[j]? = some w' → w'.controller = false) :
    controllerAfter c first ws = some holder := by
  have hfind : allDomains.reverse.find? (namesController first ws) = some holder := by
    refine find?_of_pairwise (r := fun a b => b < a) (by decide) (List.mem_reverse.2 (mem_allDomains holder)) ?_ fun j hj => ?_
    · simp [namesController, hw, hf, hc]
    · cases hwj : ws[j.val - first]? with
      | none => simp [namesController, hwj]
      | some w' =>
        have hlt : holder.val < j.val := hj
        simp [namesController, hwj, hlast (j.val - first) w' (by omega) hwj]
  rw [controllerAfter_eq, hfind]

theorem controllerAfter_unnamed {c : Domain} {first : Nat} {ws : List DomainWrite} (h : ∀ w ∈ ws, w.controller = false) :
    controllerAfter c first ws = if first ≤ c.val ∧ c.val < first + ws.length then none else some c := by
  have hfind : allDomains.reverse.find? (namesController first ws) = none := by
    rw [List.find?_eq_none]
    intro d _
    cases hw : ws[d.val - first]? with
    | none => simp [namesController, hw]
    | some w => simp [namesController, hw, h w (List.mem_of_getElem? hw)]
  rw [controllerAfter_eq, hfind]

theorem agentsDistinct_iff (v : Vector DomainConfig 12) :
    agentsDistinct v = true ↔ ∀ i j : Domain, i ≠ j → v[i].agent = none ∨ v[i].agent ≠ v[j].agent := by
  simp only [agentsDistinct, List.all_eq_true, Bool.or_eq_true, decide_eq_true_eq, Option.isNone_iff_eq_none]
  constructor
  · intro h i j hij
    have := h i (mem_allDomains i) j (mem_allDomains j)
    tauto
  · intro h i _ j _
    by_cases hij : i = j
    · exact .inl (.inl hij)
    · have := h i j hij
      tauto

section
variable (h : s.Waiting f) (hk : f.kind = .set) (ht : s.eng.platform.transitional = false)
variable {first : Nat} {ws : List DomainWrite} (h1 : 1 ≤ ws.length) (h7 : ws.length ≤ 7) (hn : first + ws.length ≤ 12)
  (ha : ∀ w ∈ ws, ∀ a, w.config.agent = some a → a ≠ 0#6 ∧ a ≠ 63#6)
  (hp : f.payload = [0x03#8, BitVec.ofNat 8 first, BitVec.ofNat 8 ws.length] ++
    ws.flatMap (fun w => bytesOfDomain w.config w.controller))

include h1 h7 hn ha hp in
/-- The checks of a SET of well-coded domain records (R13, R14). -/
theorem checkDomains_of_records : checkDomains s f.payload =
    match controllerAfter s.dom.controller first ws with
    | none => .error .badEntry
    | some holder =>
      if agentsDistinct (writeFrom s.dom.config first (ws.map DomainWrite.config)) = false then .error .badEntry
      else if s.dom.linkUp ∧ holder ≠ s.dom.controller ∧ s.recorded holder ≠ .on then .error .badEntry
      else .ok (.domains first (ws.map DomainWrite.config) holder) := by
  have hd : decodeAll domainOfBytes (ws.map fun w => bytesOfDomain w.config w.controller) = some ws :=
    decodeAll_map _ _ ws fun w hw => domainOfBytes_bytesOfDomain w.controller (ha w hw)
  rw [hp]
  simp only [checkDomains, setItems_of_items 0x03#8 (fun w : DomainWrite => bytesOfDomain w.config w.controller) (size := 4)
    (limit := 7) (lowest := 0) (highest := 11) (fun _ => rfl) ws h1 h7 (Nat.zero_le _) (by omega) (by omega) (by omega), hd] <;> rfl

end

/-- The records that a SET leaves, read by domain. -/
theorem writeFrom_config (v : Vector DomainConfig 12) (first : Nat) (ws : List DomainWrite) (i : Domain) :
    (writeFrom v first (ws.map DomainWrite.config))[i] =
      if first ≤ i.val ∧ i.val < first + ws.length
        then ((ws[i.val - first]?).map DomainWrite.config).getD DomainConfig.empty else v[i] := by
  have hg := writeFrom_getElem? v first (ws.map DomainWrite.config) i.val i.isLt
  rw [List.length_map, List.getElem?_map] at hg
  have he : (writeFrom v first (ws.map DomainWrite.config))[i.val]? = some (writeFrom v first (ws.map DomainWrite.config))[i] :=
    Vector.getElem?_eq_getElem i.isLt
  split
  · next hin =>
    rw [he, if_pos hin] at hg
    rw [← hg]
    rfl
  · next hin =>
    rw [he, if_neg hin, Vector.getElem?_eq_getElem i.isLt] at hg
    exact Option.some.inj hg

/-- Two domains of one agent. -/
theorem agentsDistinct_false {v : Vector DomainConfig 12} {i j : Domain} {a : Addr} (hij : i ≠ j) (hi : v[i].agent = some a)
    (hj : v[j].agent = some a) : agentsDistinct v = false := by
  by_contra hne
  have hd := (agentsDistinct_iff v).1 (Bool.not_eq_false _ ▸ hne) i j hij
  rw [hi, hj] at hd
  simp at hd

theorem pgOfByte_none {b : Byte} (h : 15 < b.toNat ∧ b ≠ 0xFF#8) : pgOfByte b = none := by
  revert b
  decide

theorem domainOfBytes_none {a b c d : Byte} (h : a = 0#8 ∨ (62 < a.toNat ∧ a ≠ 0xFF#8) ∨ (15 < b.toNat ∧ b ≠ 0xFF#8) ∨
    c.getLsbD 3 = true) : domainOfBytes [a, b, c, d] = none := by
  simp only [domainOfBytes]
  obtain h | h | h | h := h
  · simp [agentOfByte_none (.inl h)]
  · simp [agentOfByte_none (.inr h)]
  · rw [pgOfByte_none h]
    cases agentOfByte a <;> rfl
  · cases agentOfByte a <;> cases pgOfByte b <;> simp [bit, h]

/-- Settles O18. -/
theorem setDomainConfigurationWritesRecords : Obligations.SetDomainConfigurationWritesRecords := by
  refine ⟨fun s f first ws holder h hk ht h1 h7 hn ha hp hh hon config hcfg hdist hrails => ?_,
    fun s f first count data h hk ht hp hl hbad => ?_, fun s f first rs h hk ht h1 h7 hn hp hbad => ?_,
    fun s f first ws h hk ht h1 h7 hn ha hp hbad => ?_⟩
  · have hafter : controllerAfter s.dom.controller first ws = some holder := by
      obtain ⟨w, hw, hf, hc, hlast⟩ | ⟨rfl, hnone, hout⟩ := hh
      · exact controllerAfter_named hw hf hc hlast
      · rw [controllerAfter_unnamed hnone, if_neg hout]
    have hwrite : writeFrom s.dom.config first (ws.map DomainWrite.config) = config :=
      vector_ext_fin fun i => (writeFrom_config s.dom.config first ws i).trans (hcfg i).symm
    have hc : checkDomains s f.payload = .ok (.domains first (ws.map DomainWrite.config) holder) := by
      rw [checkDomains_of_records h1 h7 hn ha hp, hafter]
      show (if _ then _ else if _ then _ else _) = _
      rw [hwrite, if_neg (by simp [(agentsDistinct_iff config).2 hdist]), if_neg]
      rintro ⟨_, hne, hnot⟩
      exact hon.elim hne hnot
    refine (congrArg Host.Outcome.next (serveSet_ok h hk ht hp writeAndTest hc)).trans (congrArg Host.Outcome.next ?_)
    let t : State := { s.answered f [0#8] with dom := { s.dom with config := config, controller := holder } }
    have hw : writeDomains first (ws.map DomainWrite.config) holder (s.answered f [0#8]) = t := by
      have hs1 : (s.answered f [0#8]).withDom { s.dom with
          config := writeFrom s.dom.config first (ws.map DomainWrite.config), controller := holder } = t := by rw [hwrite]; rfl
      show (if holder = s.dom.controller then State.withDom _ _ else recomputeLink (State.withDom _ _)) = t
      split
      · exact hs1
      · next hne =>
        refine (congrArg recomputeLink hs1).trans (recomputeLink_of_linkRight (s := t) ?_)
        have hheld : t.linkHeld = false := by simp [t, State.linkHeld, State.answered, h.loaded]
        unfold State.LinkRight
        rw [if_neg (by simp [hheld])]
        have hr : t.recorded t.dom.controller = .on := hon.resolve_left hne
        rw [hr]
        exact h.link
    show endEvent (writeDomains first (ws.map DomainWrite.config) holder (s.answered f [0#8]), _) = t
    rw [hw]
    exact endEvent_start_of_railsGood hrails
  · have hc : checkDomains s f.payload = .error .badSelect := by
      rw [hp]
      simp only [checkDomains, setItems_badSelect (size := 4) (limit := 7) (lowest := 0) (highest := 11) (selector := 0x03#8) hl
        (show count.toNat = 0 ∨ 7 < count.toNat ∨ first.toNat < 0 ∨ 11 < first.toNat ∨ 11 + 1 < first.toNat + count.toNat
          by rw [byte_eq_zero_iff] at hbad; omega)]
    exact congrArg Host.Outcome.next (serveSet_error h hk ht hp writeAndTest hc)
  · have hc : checkDomains s f.payload = .error .badEntry := by
      obtain ⟨r, hr, hb⟩ := hbad
      have hnone : decodeAll domainOfBytes (rs.map fun r => [r.1, r.2.1, r.2.2.1, r.2.2.2]) = none :=
        decodeAll_none ⟨_, List.mem_map.2 ⟨r, hr, rfl⟩, domainOfBytes_none hb⟩
      rw [hp]
      simp only [checkDomains, setItems_of_items 0x03#8 (fun r : Byte × Byte × Byte × Byte => [r.1, r.2.1, r.2.2.1, r.2.2.2])
        (size := 4) (limit := 7) (lowest := 0) (highest := 11) (fun _ => rfl) rs h1 h7 (Nat.zero_le _) (by omega) (by omega)
        (by omega), hnone]
    exact congrArg Host.Outcome.next (serveSet_error h hk ht hp writeAndTest hc)
  · have hdist (hd : agentsDistinct (writeFrom s.dom.config first (ws.map DomainWrite.config)) = false) :
        checkDomains s f.payload = .error .badEntry := by
      rw [checkDomains_of_records h1 h7 hn ha hp]
      cases controllerAfter s.dom.controller first ws with
      | none => rfl
      | some holder => exact if_pos hd
    have hin (i : Nat) (w : DomainWrite) (hi : ws[i]? = some w) (hlt : first + i < 12) :
        (writeFrom s.dom.config first (ws.map DomainWrite.config))[(⟨first + i, hlt⟩ : Domain)] = w.config := by
      have hl : i < ws.length := (List.getElem?_eq_some_iff.1 hi).1
      rw [writeFrom_config, if_pos (by simp; omega)]
      simp [hi]
    have hc : checkDomains s f.payload = .error .badEntry := by
      obtain ⟨hf, hl, hnone⟩ | ⟨holder, w, hf, hw, hwc, hlast, hne, hoff⟩ | ⟨i, j, w, w', a, hij, hi, hj, hwa, hwa'⟩ |
        ⟨d, w, a, hout, hw, hwa, hda⟩ := hbad
      · rw [checkDomains_of_records h1 h7 hn ha hp, controllerAfter_unnamed hnone, if_pos ⟨hf, hl⟩]
      · rw [checkDomains_of_records h1 h7 hn ha hp, controllerAfter_named hw hf hwc hlast]
        show (if _ then _ else if _ then _ else _) = _
        rw [if_pos (show _ ∧ _ from ⟨h.link, hne, hoff⟩), ite_self]
      · have hil : i < ws.length := (List.getElem?_eq_some_iff.1 hi).1
        have hjl : j < ws.length := (List.getElem?_eq_some_iff.1 hj).1
        refine hdist (agentsDistinct_false (i := ⟨first + i, by omega⟩) (j := ⟨first + j, by omega⟩) (a := a) ?_ ?_ ?_)
        · intro he
          have := congrArg Fin.val he
          simp only at this
          omega
        · rw [hin i w hi, hwa]
        · rw [hin j w' hj, hwa']
      · obtain ⟨i, hi⟩ := List.mem_iff_getElem?.1 hw
        have hil : i < ws.length := (List.getElem?_eq_some_iff.1 hi).1
        refine hdist (agentsDistinct_false (i := ⟨first + i, by omega⟩) (j := d) (a := a) ?_ ?_ ?_)
        · rintro rfl
          simp only at hout
          omega
        · rw [hin i w hi, hwa]
        · rw [writeFrom_config, if_neg (by omega)]
          exact hda
    exact congrArg Host.Outcome.next (serveSet_error h hk ht hp writeAndTest hc)

end Sys2Proof.Machine
end

section
/-! SUPPORT. The checks of a GO and what an accepted one does (R34, R36, R41, R42, R44, R50). The statements O13 and O14 are
settled here. -/

namespace Sys2Proof.Machine

variable {s : State} {f : Frame}

/-! ## The structure check, position by position -/

theorem orderAgent_eq_some_iff (s : State) (x : Action) (agent : Addr) :
    s.orderAgent x = some agent ↔ ∃ d t v, x = .order d t v ∧ (s.config d).agent = some agent := by
  cases x <;> simp [State.orderAgent]

theorem enLine_eq_some_iff (x : Action) (l : EnLine) : x.enLine = some l ↔ ∃ c h v, x = .line c l h v := by
  cases x <;> simp [Action.enLine]

theorem joinedFrom_self (steps : List PlanStep) (p : Nat) : JoinedFrom steps p p := ⟨Nat.le_refl p, fun _ h1 h2 => by omega⟩

theorem joinedFrom_succ {steps : List PlanStep} {a p : Nat} {q : PlanStep} (hq : steps[p]? = some q) (ha : a ≤ p) :
    JoinedFrom steps a (p + 1) ↔ JoinedFrom steps a p ∧ q.step.join = true := by
  constructor
  · rintro ⟨_, h⟩
    obtain ⟨x, hx, hj⟩ := h p ha (Nat.lt_succ_self p)
    obtain rfl := Option.some.inj (hq.symm.trans hx)
    exact ⟨⟨ha, fun k h1 h2 => h k h1 (by omega)⟩, hj⟩
  · rintro ⟨⟨_, h⟩, hj⟩
    refine ⟨by omega, fun k h1 h2 => ?_⟩
    by_cases hk : k = p
    · exact ⟨q, hk ▸ hq, hj⟩
    · exact h k h1 (by omega)

/-- What the check has seen of the group that reaches position p. -/
def State.seenAt (s : State) (steps : List PlanStep) (p : Nat) : GroupSeen := (steps.take p).foldl (GroupSeen.next s) .start

theorem seenAt_succ {steps : List PlanStep} {p : Nat} {q : PlanStep} (hq : steps[p]? = some q) :
    s.seenAt steps (p + 1) = GroupSeen.next s (s.seenAt steps p) q := by
  unfold State.seenAt
  rw [List.take_add_one, hq]
  simp

/-- The members, agents and lines seen are those of the positions joined to this one. -/
structure SeenRight (s : State) (steps : List PlanStep) (p : Nat) (g : GroupSeen) : Prop where
  members : ∀ k, k ≤ g.members ↔ k ≤ p ∧ JoinedFrom steps (p - k) p
  agents  : ∀ agent, agent ∈ g.agents ↔
    ∃ a x, a < p ∧ JoinedFrom steps a p ∧ steps[a]? = some x ∧ s.orderAgent x.step.action = some agent
  lines   : ∀ l, l ∈ g.lines ↔ ∃ a x, a < p ∧ JoinedFrom steps a p ∧ steps[a]? = some x ∧ x.step.action.enLine = some l

/-- The joined positions before the next one, where this step's join flag is 1: those before this one, and this one. -/
theorem exists_joined_succ {steps : List PlanStep} {p : Nat} {q : PlanStep} (hq : steps[p]? = some q) (hj : q.step.join = true)
    (r : PlanStep → Prop) :
    (∃ a x, a < p + 1 ∧ JoinedFrom steps a (p + 1) ∧ steps[a]? = some x ∧ r x) ↔
      r q ∨ ∃ a x, a < p ∧ JoinedFrom steps a p ∧ steps[a]? = some x ∧ r x := by
  constructor
  · rintro ⟨a, x, ha, hjoin, hx, hr⟩
    by_cases he : a = p
    · subst he
      obtain rfl := Option.some.inj (hq.symm.trans hx)
      exact .inl hr
    · exact .inr ⟨a, x, by omega, ((joinedFrom_succ hq (by omega)).1 hjoin).1, hx, hr⟩
  · rintro (hr | ⟨a, x, ha, hjoin, hx, hr⟩)
    · exact ⟨p, q, Nat.lt_succ_self p, (joinedFrom_succ hq (Nat.le_refl p)).2 ⟨joinedFrom_self steps p, hj⟩, hq, hr⟩
    · exact ⟨a, x, by omega, (joinedFrom_succ hq (by omega)).2 ⟨hjoin, hj⟩, hx, hr⟩

theorem not_exists_joined_succ {steps : List PlanStep} {p : Nat} {q : PlanStep} (hq : steps[p]? = some q)
    (hj : q.step.join = false) (r : PlanStep → Prop) :
    ¬ ∃ a x, a < p + 1 ∧ JoinedFrom steps a (p + 1) ∧ steps[a]? = some x ∧ r x := by
  rintro ⟨a, x, ha, hjoin, _⟩
  have hjq := ((joinedFrom_succ hq (by omega)).1 hjoin).2
  simp [hj] at hjq

theorem seenRight (steps : List PlanStep) (p : Nat) (hp : p ≤ steps.length) : SeenRight s steps p (s.seenAt steps p) := by
  induction p with
  | zero =>
    refine ⟨fun k => ⟨fun h => ?_, fun h => h.1⟩, fun agent => ?_, fun l => ?_⟩
    · exact ⟨h, by simpa using joinedFrom_self steps 0⟩
    · simp [State.seenAt, GroupSeen.start]
    · simp [State.seenAt, GroupSeen.start]
  | succ p ih =>
    obtain ⟨hm, ha, hl⟩ := ih (by omega)
    obtain ⟨q, hq⟩ : ∃ q, steps[p]? = some q := ⟨_, List.getElem?_eq_getElem (by omega)⟩
    rw [seenAt_succ hq]
    cases hj : q.step.join with
    | true =>
      refine ⟨fun k => ?_, fun agent => ?_, fun l => ?_⟩
      · simp only [GroupSeen.next, hj, if_true]
        cases k with
        | zero => exact ⟨fun _ => ⟨Nat.zero_le _, joinedFrom_self steps (p + 1)⟩, fun _ => Nat.zero_le _⟩
        | succ k =>
          have hsub : p + 1 - (k + 1) = p - k := by omega
          rw [hsub, Nat.add_le_add_iff_right, hm k]
          constructor
          · rintro ⟨hk, hjoin⟩
            exact ⟨by omega, (joinedFrom_succ hq (by omega)).2 ⟨hjoin, hj⟩⟩
          · rintro ⟨hk, hjoin⟩
            exact ⟨by omega, ((joinedFrom_succ hq (by omega)).1 hjoin).1⟩
      · rw [exists_joined_succ hq hj fun x => s.orderAgent x.step.action = some agent, ← ha agent]
        simp [GroupSeen.next, hj]
      · rw [exists_joined_succ hq hj fun x => x.step.action.enLine = some l, ← hl l]
        simp [GroupSeen.next, hj]
    | false =>
      have hnext : GroupSeen.next s (s.seenAt steps p) q = .start := by simp [GroupSeen.next, hj]
      rw [hnext]
      refine ⟨fun k => ?_, fun agent => ?_, fun l => ?_⟩
      · cases k with
        | zero => exact ⟨fun _ => ⟨Nat.zero_le _, joinedFrom_self steps (p + 1)⟩, fun _ => Nat.zero_le _⟩
        | succ k =>
          refine ⟨fun h => absurd h (by simp [GroupSeen.start]), fun ⟨hk, hjoin⟩ => ?_⟩
          have hjq := ((joinedFrom_succ hq (by omega)).1 hjoin).2
          simp [hj] at hjq
      · simp only [GroupSeen.start, List.not_mem_nil, false_iff]
        exact not_exists_joined_succ hq hj _
      · simp only [GroupSeen.start, List.not_mem_nil, false_iff]
        exact not_exists_joined_succ hq hj _

/-- The check's five tests at a position are the five conditions of R36. -/
theorem breaksAt_iff {steps : List PlanStep} {p : Nat} {q : PlanStep} (hq : steps[p]? = some q) :
    s.BreaksAt steps p q ↔ breaksStructure s (decide (p + 1 = steps.length)) (s.seenAt steps p) q = true := by
  have hlen : p < steps.length := (List.getElem?_eq_some_iff.1 hq).1
  obtain ⟨hm, ha, hl⟩ := seenRight (s := s) steps p (by omega)
  have hagent : (s.orderAgent q.step.action).any (fun a => decide (a ∈ (s.seenAt steps p).agents)) = true ↔
      ∃ (a : Nat) (x : PlanStep) (d e : Domain) (t u : OrdState) (v w : Bool) (agent : Addr),
        a < p ∧ JoinedFrom steps a p ∧ steps[a]? = some x ∧ x.step.action = .order d t v ∧ q.step.action = .order e u w ∧
        (s.config d).agent = some agent ∧ (s.config e).agent = some agent := by
    simp only [Option.any_eq_true, decide_eq_true_eq, ha, orderAgent_eq_some_iff]
    constructor
    · rintro ⟨agent, ⟨e, u, w, hqa, hqe⟩, a, x, hap, hjoin, hx, d, t, v, hxa, hxd⟩
      exact ⟨a, x, d, e, t, u, v, w, agent, hap, hjoin, hx, hxa, hqa, hxd, hqe⟩
    · rintro ⟨a, x, d, e, t, u, v, w, agent, hap, hjoin, hx, hxa, hqa, hxd, hqe⟩
      exact ⟨agent, ⟨e, u, w, hqa, hqe⟩, a, x, hap, hjoin, hx, d, t, v, hxa, hxd⟩
  have hline : (q.step.action.enLine).any (fun l => decide (l ∈ (s.seenAt steps p).lines)) = true ↔
      ∃ (a : Nat) (x : PlanStep) (l : EnLine) (c d : Option (Domain × Option OrdState)) (h i v w : Bool),
        a < p ∧ JoinedFrom steps a p ∧ steps[a]? = some x ∧ x.step.action = .line c l h v ∧ q.step.action = .line d l i w := by
    simp only [Option.any_eq_true, decide_eq_true_eq, hl, enLine_eq_some_iff]
    constructor
    · rintro ⟨l, ⟨d, i, w, hqa⟩, a, x, hap, hjoin, hx, c, h, v, hxa⟩
      exact ⟨a, x, l, c, d, h, i, v, w, hap, hjoin, hx, hxa, hqa⟩
    · rintro ⟨a, x, l, c, d, h, i, v, w, hap, hjoin, hx, hxa, hqa⟩
      exact ⟨l, ⟨d, i, w, hqa⟩, a, x, hap, hjoin, hx, c, h, v, hxa⟩
  unfold State.BreaksAt breaksStructure
  rw [← hagent, ← hline]
  simp only [Bool.or_eq_true, Bool.and_eq_true, decide_eq_true_eq, Bool.not_eq_true', hm]
  constructor
  · rintro ⟨_, h⟩
    tauto
  · intro h
    exact ⟨hq, by tauto⟩

/-- The check from a position on, with what it has seen there. -/
theorem structureFault_drop {steps : List PlanStep} {p : Nat} {q : PlanStep} (hq : steps[p]? = some q) :
    structureFault s (s.seenAt steps p) (steps.drop p) =
      if breaksStructure s (decide (p + 1 = steps.length)) (s.seenAt steps p) q then some q.index
      else structureFault s (s.seenAt steps (p + 1)) (steps.drop (p + 1)) := by
  obtain ⟨hlen, hget⟩ := List.getElem?_eq_some_iff.1 hq
  have hlast : (steps.drop (p + 1)).isEmpty = decide (p + 1 = steps.length) := by
    rw [Bool.eq_iff_iff, List.isEmpty_iff, List.drop_eq_nil_iff, decide_eq_true_eq]
    omega
  rw [List.drop_eq_getElem_cons hlen, hget, structureFault, hlast, ← seenAt_succ hq]

/-- Positions that break nothing are passed over. -/
theorem structureFault_skip (steps : List PlanStep) (p : Nat) (hp : p ≤ steps.length)
    (h : ∀ p' q', p' < p → ¬ s.BreaksAt steps p' q') :
    structureFault s .start steps = structureFault s (s.seenAt steps p) (steps.drop p) := by
  induction p with
  | zero => rfl
  | succ p ih =>
    obtain ⟨q, hq⟩ : ∃ q, steps[p]? = some q := ⟨_, List.getElem?_eq_getElem (by omega)⟩
    rw [ih (by omega) (fun p' q' hlt => h p' q' (by omega)), structureFault_drop hq, if_neg]
    exact fun hb => h p q (Nat.lt_succ_self p) ((breaksAt_iff hq).2 hb)

theorem structureFault_of_breaksAt {steps : List PlanStep} {p : Nat} {q : PlanStep} (hb : s.BreaksAt steps p q)
    (h : ∀ p' q', p' < p → ¬ s.BreaksAt steps p' q') : structureFault s .start steps = some q.index := by
  obtain ⟨hq, _⟩ := id hb
  rw [structureFault_skip steps p (List.getElem?_eq_some_iff.1 hq).1.le h, structureFault_drop hq,
    if_pos ((breaksAt_iff hq).1 hb)]

theorem structureFault_of_none {steps : List PlanStep} (h : ∀ p q, ¬ s.BreaksAt steps p q) :
    structureFault s .start steps = none := by
  rw [structureFault_skip steps steps.length (Nat.le_refl _) (fun p q _ => h p q), List.drop_length]
  rfl

/-! ## Taking a GO -/

theorem sleep_ofByte_code (t : Sleep) : Sleep.ofByte (BitVec.ofNat 8 t.code) = some t := by cases t <;> rfl

theorem sleep_ofByte_none {b : Byte} (h : 2 < b.toNat) : Sleep.ofByte b = none := by
  unfold Sleep.ofByte
  split <;> first | omega | rfl

theorem armedFor_eq (s : State) (t : Sleep) : s.armedFor t = s.wake.enable &&& ~~~s.mask t &&& ~~~s.wake.suppressed := by
  cases t <;> rfl

section
variable (h : s.Waiting f) (hk : f.kind = .go)
include h hk

theorem exec_go : exec .go s = .next (match checkGo s f.payload with
    | .error (code, data) => s.answered f (code.code :: data)
    | .ok (t, conditional, steps) => endEvent (acceptGo f t conditional steps (popUp s))) := by
  show execGo s = _
  unfold execGo
  rw [h.request (.inr (.inr (.inl hk)))]
  simp only [Option.filter, hk, decide_true, if_true]
  cases checkGo s f.payload with
  | error x => exact congrArg Host.Outcome.next (h.answer x.1 x.2)
  | ok x => rfl

theorem go_error {code : ResultCode} {data : List Byte} (hc : checkGo s f.payload = .error (code, data)) :
    exec .go s = .next (s.answered f (code.code :: data)) := by
  rw [exec_go h hk, hc]

theorem go_ok {t : Sleep} {conditional : Bool} {steps : List PlanStep} (hc : checkGo s f.payload = .ok (t, conditional, steps)) :
    exec .go s = .next (endEvent (acceptGo f t conditional steps (popUp s))) := by
  rw [exec_go h hk, hc]

end

section
variable (hw : s.eng.platform = .working)
include hw

theorem checkGo_of_unreadable {payload : List Byte} (hp : goOfBytes payload = none) :
    checkGo s payload = .error (.badSelect, []) := by
  simp [checkGo, hw, hp]

theorem checkGo_of_readable {payload : List Byte} {t : Sleep} {c : Bool} {g : BitVec 16}
    (hp : goOfBytes payload = some (t, c, g)) : checkGo s payload = match checkSequence s t.code with
      | .error .noSequence => .error (.noSequence, [])
      | .error (.badSequence i) => .error (.badSequence, [byteOf i])
      | .ok steps =>
        if c = true ∧ g ≠ s.wake.generation then .error (.stale, [])
        else if c = true ∧ s.wakePending t = true then .error (.wakePending, [])
        else .ok (t, c, steps) := by
  unfold checkGo
  rw [if_neg (by simp [hw]), hp] <;> rfl

end

theorem goOfBytes_eq (t : Sleep) {m : Byte} (g1 g0 : Byte) (hm : m.toNat ≤ 1) :
    goOfBytes [BitVec.ofNat 8 t.code, m, g1, g0] = some (t, m == 0#8, g1 ++ g0) := by
  simp only [goOfBytes, sleep_ofByte_code]
  exact if_pos (by omega)

theorem goOfBytes_none {a m : Byte} (g1 g0 : Byte) (h : 2 < a.toNat ∨ 1 < m.toNat) : goOfBytes [a, m, g1, g0] = none := by
  obtain h | h := h
  · simp only [goOfBytes, sleep_ofByte_none h]
  · simp only [goOfBytes]
    cases Sleep.ofByte a with
    | none => rfl
    | some t => exact if_neg (by omega)

theorem goOfBytes_of_length {l : List Byte} (h : l.length ≠ 4) : goOfBytes l = none := by
  unfold goOfBytes
  split
  · exact absurd rfl h
  · rfl

theorem checkSequence_of_count_zero {k : Nat} (h : (s.dirEntry k).count = 0) : checkSequence s k = .error .noSequence :=
  if_pos h

theorem checkSequence_of_count {k : Nat} (h : (s.dirEntry k).count ≠ 0) : checkSequence s k =
    match structureFault s .start (s.rangeOf (s.dirEntry k)) with
    | some i => .error (.badSequence i)
    | none => .ok (s.rangeOf (s.dirEntry k)) := if_neg h

/-- Settles O13. -/
theorem goIsRefusedByTheFirstFailingCheck : Obligations.GoIsRefusedByTheFirstFailingCheck := by
  intro s f h hk
  refine ⟨fun hw => ?_, fun hw hl => ?_, fun a m g1 g0 hw hp hbad => ?_, fun t m g1 g0 hw hp hm => ⟨fun h0 => ?_, fun hn => ?_⟩⟩
  · exact go_error h hk (code := .busy) (if_pos hw)
  · exact go_error h hk (code := .badSelect) (checkGo_of_unreadable hw (goOfBytes_of_length hl))
  · exact go_error h hk (code := .badSelect) (checkGo_of_unreadable hw (hp ▸ goOfBytes_none g1 g0 hbad))
  all_goals have hgo := checkGo_of_readable hw (hp ▸ goOfBytes_eq t g1 g0 hm)
  · rw [checkSequence_of_count_zero h0] at hgo
    exact go_error h hk hgo
  rw [checkSequence_of_count hn] at hgo
  have hfault : ∀ i, structureFault s GroupSeen.start (s.rangeOf (s.dirEntry t.code)) = some i →
      exec .go s = .next (s.answered f [6#8, BitVec.ofNat 8 i]) := fun i hi => by
    rw [hi] at hgo
    exact go_error h hk hgo
  refine ⟨hfault, fun p q hb hfirst => hfault _ (structureFault_of_breaksAt hb hfirst), structureFault_of_none,
    fun hnone hm0 => ⟨fun hg => ?_, fun hg hpend => ?_⟩⟩
  all_goals
    rw [hnone] at hgo
    simp only [hm0, beq_self_eq_true, true_and] at hgo
  · rw [if_pos hg] at hgo
    exact go_error h hk hgo
  · have hwp : s.wakePending t = true := by
      rw [State.wakePending, armedFor_eq]
      exact decide_eq_true hpend
    rw [if_neg (not_not.2 hg), if_pos hwp] at hgo
    exact go_error h hk hgo

/-! ## The first ORDER of a Plan -/

/-- The state after an ORDER step alone in its group has been started (R47, R50). -/
def State.orderStarted (s : State) (q : PlanStep) (d : Domain) (target : OrdState) (a : Addr) : State :=
  { s with
    eng := { s.eng with
      plan := s.eng.plan.map fun p => { p with started := p.started + 1 },
      running := s.eng.running ++ [⟨q, s.recorded d, false, startTimer (ticks q.step.code)⟩],
      orders := s.eng.orders ++ [⟨d, a, s.eng.tag, target, some q.position⟩], tag := s.eng.tag + 1#4 },
    down := { s.down with own := s.down.own ++ [⟨a, 63#6, .order, s.eng.tag, false, [BitVec.ofNat 8 target.code]⟩] } }

theorem queueDown_of_room {x : Frame} (h : s.down.own.length < 24) :
    queueDown x s = s.withDown { s.down with own := s.down.own ++ [x] } := if_pos h

theorem startMember_order {q : PlanStep} {d : Domain} {target : OrdState} {rev : Bool} {a : Addr} (left : Departed)
    (hact : q.step.action = .order d target rev) (ha : (s.config d).agent = some a) (hown : s.down.own.length < 24) :
    startMember q left s = ⟨s.orderStarted q d target a, left, none⟩ := by
  have hc : ((countStarted s).config d).agent = some a := ha
  simp only [startMember, hact, hc, memberOf, Action.domain, Action.enLine, sendOrder]
  rw [queueDown_of_room ?_]
  · rfl
  · exact hown

/-- A Plan that begins with an ORDER in a group of its own waits for that ORDER. -/
theorem runSteps_order {q : PlanStep} {d : Domain} {target : OrdState} {rev : Bool} {a : Addr} (rest : List PlanStep)
    (left : Departed) (hact : q.step.action = .order d target rev) (hj : q.step.join = false)
    (ha : (s.config d).agent = some a) (hown : s.down.own.length < 24) :
    runSteps (q :: rest) left s = ⟨s.orderStarted q d target a, left, .waiting⟩ := by
  simp only [runSteps, startMember_order left hact ha hown, Option.filter_none, hj, Bool.false_and, Bool.false_eq_true, if_false]
  rw [if_pos (by simp [State.orderStarted])]

theorem relatch_inactive (c : SourceSet) (p : State × Departed)
    (h : ∀ k : WakeLine, hasBit c (lineSource k) = true → (p.1.qual.lines[k]).active = false) : relatch c p = p := by
  unfold relatch
  induction allWakeLines with
  | nil => rfl
  | cons k l ih =>
    rw [List.foldl_cons, if_neg]
    · exact ih
    · rw [Bool.and_eq_true]
      rintro ⟨hb, ha⟩
      exact Bool.false_ne_true ((h k hb).symm.trans ha)

theorem relatch_zero (p : State × Departed) : relatch 0#16 p = p :=
  relatch_inactive 0#16 p fun k hk => by simp [hasBit] at hk

theorem risingOf_getLsbD (steps : List PlanStep) (e : Domain) :
    (risingOf steps).getLsbD e.val = steps.any fun x => decide (x.step.action.endsOn = some e) := setOf_domains _ e

/-- Settles O14. -/
theorem acceptedGoSendsItsFirstOrder : Obligations.AcceptedGoSendsItsFirstOrder := by
  intro s f t m g1 g0 steps rest q d target rev a h hk hp hw hr hmode hsteps hplan hact hj ha hown
  have hm : m.toNat ≤ 1 := by obtain ⟨rfl, _⟩ | ⟨rfl, _⟩ := hmode <;> decide
  have hcheck : checkGo s f.payload = .ok (t, m == 0#8, steps) := by
    rw [checkGo_of_readable hw (hp ▸ goOfBytes_eq t g1 g0 hm), hsteps]
    obtain ⟨rfl, hg, hl⟩ | ⟨rfl, _⟩ := hmode
    · have hwp : s.wakePending t = false := by
        rw [State.wakePending, armedFor_eq]
        exact decide_eq_false (not_not.2 hl)
      simp [hg, hwp]
    · simp
  let s1 := answer f .ok [] (enterSleep t (m == 0#8) steps (popUp s))
  have hplan1 : planOf steps (s.dirEntry t.code).commit (s.armedFor t) none = ⟨q :: rest, 0, (s.dirEntry t.code).commit⟩ := by
    rw [planOf, hplan]
  have henter : ∀ plan, planOf steps (s.dirEntry t.code).commit (s.armedFor t) none = plan →
      enterSleep t (m == 0#8) steps (popUp s) = { s with
        up := { s.up with input := s.up.input.tail },
        wake := { s.wake with latch := if m = 1#8 then 0#16 else s.wake.latch, armed := s.armedFor t },
        eng := { s.eng with platform := .entering t, plan := some plan, rising := risingOf plan.steps },
        gate := { s.gate with permit := false } } := by
    rintro _ rfl
    obtain ⟨rfl, _⟩ | ⟨rfl, _⟩ := hmode <;> cases t <;> rfl
  have henter : enterSleep t (m == 0#8) steps (popUp s) = { s with
      up := { s.up with input := s.up.input.tail },
      wake := { s.wake with latch := if m = 1#8 then 0#16 else s.wake.latch, armed := s.armedFor t },
      eng := { s.eng with platform := .entering t, plan := some ⟨q :: rest, 0, (s.dirEntry t.code).commit⟩,
                          rising := risingOf (q :: rest) },
      gate := { s.gate with permit := false } } := by
    exact henter _ hplan1
  have hs1 : s1 = { s with
      up := { s.up with input := s.up.input.tail, own := s.up.own ++ [⟨0#6, 63#6, .result, f.tag, false, [0#8]⟩] },
      wake := { s.wake with latch := if m = 1#8 then 0#16 else s.wake.latch, armed := s.armedFor t },
      eng := { s.eng with platform := .entering t, plan := some ⟨q :: rest, 0, (s.dirEntry t.code).commit⟩,
                          rising := risingOf (q :: rest) },
      gate := { s.gate with permit := false } } := by
    simp only [s1, henter, answer, queueResult]
    rw [if_pos h.link, if_pos h.room]
    rfl
  have hrun : runSteps s1.unstarted (.start s1) s1 = ⟨s1.orderStarted q d target a, .start s1, .waiting⟩ := by
    have hu : s1.unstarted = q :: rest := by rw [hs1]; rfl
    rw [hu]
    exact runSteps_order rest _ hact hj (by rw [hs1]; exact ha) (by rw [hs1]; exact hown)
  have haccept : acceptGo f t (m == 0#8) steps (popUp s) = (s1.orderStarted q d target a, .start s1) := by
    have hact' : acceptGo f t (m == 0#8) steps (popUp s) =
        relatch (if (m == 0#8) = true then 0#16 else s.wake.latch) (settle (runSteps s1.unstarted (.start s1) s1)) := rfl
    rw [hact', hrun]
    obtain ⟨rfl, _⟩ | ⟨rfl, hact⟩ := hmode
    · exact relatch_zero _
    · exact relatch_inactive _ _ fun k _ => by
        show ((s1.orderStarted q d target a).qual.lines[k]).active = false
        rw [hs1]
        exact hact k
  have hrails : (s1.orderStarted q d target a).RailsGood := hr.congr (by rw [hs1]; rfl) (by rw [hs1]; rfl)
  refine ⟨s1.orderStarted q d target a, ?_, ?_⟩
  · rw [go_ok h hk hcheck, haccept, endEvent_start_of_railsGood hrails]
  · rw [hs1]
    exact ⟨rfl, armedFor_eq s t, rfl, rfl, rfl, rfl, rfl, rfl, rfl, rfl, rfl, risingOf_getLsbD (q :: rest), rfl, rfl, rfl, rfl,
      rfl, rfl, rfl, rfl⟩

end Sys2Proof.Machine
end

section
/-! SUPPORT. What the GET requests return (R166, R167, sections 10.5.2 and 10.10). The statements O25 and O26 are settled here. -/

namespace Sys2Proof.Machine

variable {s : State} {f : Frame}

/-! ## Taking a GET -/

section
variable (h : s.Waiting f) (hk : f.kind = .get)
include h hk

theorem serveGet_ok {selector : Byte} {rest bytes : List Byte} {data : State → List Byte → Except ResultCode (List Byte)}
    (hp : f.payload = selector :: rest) (hd : data s f.payload = .ok bytes) :
    serveGet selector data s = s.answered f (0#8 :: bytes) := by
  rw [h.serveGet selector data hk rest hp, hd]

section
variable {selector : Byte} {first count : Nat} (hp : f.payload = [selector, BitVec.ofNat 8 first, BitVec.ofNat 8 count])
  (hc : 1 ≤ count) (hf256 : first < 256) (hc256 : count < 256)
include hp hc hf256 hc256

theorem serveGet_items {α : Type} {n limit lowest highest base : Nat} {bytes : α → List Byte} (v : State → Vector α n)
    (h1 : count ≤ limit) (h2 : lowest ≤ first) (h3 : first + count ≤ highest + 1) :
    serveGet selector (fun s => itemData limit lowest highest (v s) base bytes) s = s.answered f
      (0#8 :: ((List.range count).filterMap fun i => (v s)[first - base + i]?).flatMap bytes) := by
  refine serveGet_ok h hk hp ?_
  rw [hp, itemData, getItems_of_items selector hc h1 h2 h3 hf256 hc256]
  exact congrArg Except.ok (congrArg (fun l : List α => l.flatMap bytes) (readFrom_eq (v s) (first - base) count))

end
end

/-! ## Objects with items -/

theorem flatMap_filterMap {α β γ : Type} (g : α → Option β) (b : β → List γ) (l : List α) :
    (l.filterMap g).flatMap b = l.flatMap fun i => ((g i).map b).getD [] := by
  induction l with
  | nil => rfl
  | cons a l ih => cases hg : g a <;> simp [hg, ih]

theorem domainRecords_get (i : Nat) : s.domainRecords[i]? =
    (s.dom.config[i]?).map fun c => (c, decide (i = s.dom.controller.val)) := by
  by_cases hi : i < 12
  · rw [Vector.getElem?_eq_getElem hi, Vector.getElem?_eq_getElem hi]
    simp [State.domainRecords, Fin.ext_iff]
  · rw [Vector.getElem?_eq_none (by omega), Vector.getElem?_eq_none (by omega)]
    rfl

/-- Settles O25. -/
theorem getsOfItemsReturnThem : Obligations.GetsOfItemsReturnThem := by
  intro s f selector first count h hk hc hf256 hc256 hp
  refine ⟨fun hs h1 h2 => ?_, fun hs h2 => ?_, fun hs h1 h2 => ?_, fun hs h2 => ?_, fun hs h0 h1 h2 => ?_, fun hs h1 h2 => ?_,
    fun hs h2 => ?_, fun hs h1 => ?_, fun hs h1 => ?_⟩
  all_goals subst hs
  · exact congrArg Host.Outcome.next (serveGet_items h hk hp hc hf256 hc256 (base := 0) (fun s => s.eng.store) h1 (Nat.zero_le _)
      (by omega))
  · exact congrArg Host.Outcome.next (serveGet_items h hk hp hc hf256 hc256 (limit := 7) (base := 0) (fun s => s.eng.directory)
      (by omega) (Nat.zero_le _) (by omega))
  · refine (congrArg Host.Outcome.next (serveGet_items h hk hp hc hf256 hc256 (base := 0) State.domainRecords h1
      (Nat.zero_le _) (by omega))).trans ?_
    rw [flatMap_filterMap]
    simp only [Nat.sub_zero, domainRecords_get, Option.map_map]
    rfl
  · exact congrArg Host.Outcome.next (serveGet_items h hk hp hc hf256 hc256 (limit := 12) (base := 0) (fun s => s.dom.status)
      (by omega) (Nat.zero_le _) (by omega))
  · refine (congrArg Host.Outcome.next (serveGet_items h hk hp hc hf256 hc256 (fun s => s.dom.agentMap) h1 h0
      (by omega))).trans ?_
    rw [List.map_eq_flatMap]
  · exact congrArg Host.Outcome.next (serveGet_items h hk hp hc hf256 hc256 (base := 0) (fun s => s.matcher.table) h1
      (Nat.zero_le _) (by omega))
  · exact congrArg Host.Outcome.next (serveGet_items h hk hp hc hf256 hc256 (limit := 8) (base := 0) (fun s => s.qual.lines)
      (by omega) (Nat.zero_le _) (by omega))
  · have hd : dataHold s f.payload = .ok ([byteOf s.gate.hold.length, byteOfBool s.gate.permit] ++
        ((s.gate.hold.drop first).take count).flatMap bytesOfHold) := by
      rw [hp, dataHold, getItems_of_items 0x11#8 hc h1 (Nat.zero_le _) (by omega) hf256 hc256]
    exact congrArg Host.Outcome.next (serveGet_ok h hk hp hd)
  · have hd : dataRetained s f.payload =
        .ok ((List.range count).map fun i => Memory.read s.mgmt.retained ((first + i) % 64)) := by
      rw [hp, dataRetained, getItems_of_items 0x14#8 hc h1 (Nat.zero_le _) (by omega) hf256 hc256]
      show Except.ok (Memory.readBytes s.mgmt.retained (first % 64) count) = _
      rw [Memory.readBytes_eq _ _ _ (Nat.mod_lt _ (by decide))]
      refine congrArg Except.ok (List.map_congr_left fun i _ => ?_)
      rw [show (first % 64 + i) % 64 = (first + i) % 64 by omega]
    exact congrArg Host.Outcome.next (serveGet_ok h hk hp hd)

/-! ## Whole objects -/

theorem stormBytes_eq (v : Vector Nat 16) :
    v.toList.tail.map byteOf = (List.range 15).map fun i => BitVec.ofNat 8 ((v[i + 1]?).getD 0) := by
  refine List.ext_getElem (by simp) fun i h1 h2 => ?_
  have hi : i + 1 < 16 := by simp at h2; omega
  simp [hi, byteOf]

theorem exec_getWakeContext (h : s.Waiting f) (hk : f.kind = .get) (hp : f.payload = [0x0A#8]) :
    exec .getWakeContext s = .next (drawn 9 s.wake.context.isNone
      (s.answered f (0#8 :: presentBytes 9 s.draws (s.wake.context.map bytesOfContext)))) := by
  show Host.Outcome.next (drawn 9 ((s.requestFor .get 0x0A#8).isSome && s.wake.context.isNone)
    (serveGet 0x0A#8 dataWakeContext s)) = _
  rw [h.requestFor .get 0x0A#8 hk [] hp (by simp), serveGet_ok h hk hp (data := dataWakeContext) (by rw [hp]; rfl)]
  rfl

theorem exec_getLastReport (h : s.Waiting f) (hk : f.kind = .get) (hp : f.payload = [0x10#8]) :
    exec .getLastReport s = .next (drawn 7 s.eng.lastReport.isNone
      (s.answered f (0#8 :: presentBytes 7 s.draws (s.eng.lastReport.map bytesOfReport)))) := by
  show Host.Outcome.next (drawn 7 ((s.requestFor .get 0x10#8).isSome && s.eng.lastReport.isNone)
    (serveGet 0x10#8 dataReport s)) = _
  rw [h.requestFor .get 0x10#8 hk [] hp (by simp), serveGet_ok h hk hp (data := dataReport) (by rw [hp]; rfl)]
  rfl

/-- Settles O26. -/
theorem getsOfWholeObjectsReturnThem : Obligations.GetsOfWholeObjectsReturnThem := by
  intro s f h hk
  refine ⟨fun hp => ?_, fun hp => ?_, fun hp => ?_, fun c hp hctx => ?_, fun hp => ?_, fun hp => ?_, fun hp => ?_, fun hp => ?_,
    fun r hp hrep => ?_, fun hp => ?_, fun hp => ?_, fun hp => ?_, fun hp hctx => ?_, fun hp hrep => ?_⟩
  · exact congrArg Host.Outcome.next (serveGet_ok h hk hp (data := dataWakeSettings) (by rw [hp]; rfl))
  · exact congrArg Host.Outcome.next (serveGet_ok h hk hp (data := dataWakeStatus) (by rw [hp]; rfl))
  · rw [← stormBytes_eq]
    exact congrArg Host.Outcome.next (serveGet_ok h hk hp (data := dataStormCounts) (by rw [hp]; rfl))
  · rw [exec_getWakeContext h hk hp, hctx]
    rfl
  · exact congrArg Host.Outcome.next (serveGet_ok h hk hp (data := dataButton) (by rw [hp]; rfl))
  · exact congrArg Host.Outcome.next (serveGet_ok h hk hp (data := dataWakeTimer) (by rw [hp]; rfl))
  · exact congrArg Host.Outcome.next (serveGet_ok h hk hp (data := dataSafeLevels) (by rw [hp]; rfl))
  · exact congrArg Host.Outcome.next (serveGet_ok h hk hp (data := dataEngine) (by rw [hp]; rfl))
  · rw [exec_getLastReport h hk hp, hrep]
    rfl
  · exact ⟨s.pgLevels, setOf_pgLines s.pgLevel,
      congrArg Host.Outcome.next (serveGet_ok h hk hp (data := dataPowerGood) (by rw [hp]; rfl))⟩
  · exact congrArg Host.Outcome.next (serveGet_ok h hk hp (data := dataCounters) (by rw [hp]; rfl))
  · exact congrArg Host.Outcome.next (serveGet_ok h hk hp (data := dataLoader) (by rw [hp]; rfl))
  · refine ⟨(List.range 9).map fun i => Config.absentByte (s.draws + i), by simp, ?_⟩
    rw [exec_getWakeContext h hk hp, hctx]
    rfl
  · refine ⟨(List.range 7).map fun i => Config.absentByte (s.draws + i), by simp, ?_⟩
    rw [exec_getLastReport h hk hp, hrep]
    rfl

end Sys2Proof.Machine
end

section
/-! SUPPORT. A latch event that is neither counted nor an armed latch, and the CLEAR requests (R91, R94, R109, R157, R166, R168).
The statements O27 and O28 are settled here. -/

namespace Sys2Proof.Machine

variable {s : State} {f : Frame}

/-! ## Frames that find a place -/

/-- A frame made at the Upstream Port would find a place in its own-frame queue (R165). -/
def State.UpRoom (s : State) : Prop := s.dom.linkUp = true → s.up.own.length < s.upstreamPlaces

theorem queueUp_of_room (x : Frame) (h : s.UpRoom) : queueUp x s = if s.dom.linkUp then s.upQueued x else s := by
  unfold queueUp
  split
  · next hl => exact if_pos (h hl)
  · rfl

theorem queueUp_of_up (x : Frame) (hl : s.dom.linkUp = true) (h : s.up.own.length < s.upstreamPlaces) :
    queueUp x s = s.upQueued x := by
  rw [queueUp_of_room x fun _ => h, if_pos hl]

theorem queueUp_of_down (x : Frame) (hl : s.dom.linkUp = false) : queueUp x s = s := if_neg (by simp [hl])

theorem upstreamPlaces_of_free (h : s.mgmt.serving = none) : s.upstreamPlaces = 24 := by simp [State.upstreamPlaces, h]

theorem queueUp_dom (x : Frame) (s : State) : (queueUp x s).dom = s.dom := by
  unfold queueUp
  (repeat' split) <;> rfl

/-! ## A latch event that is no more -/

theorem latchBit_of_room (src : Source) (h : s.UpRoom) : latchBit src s = s.latched src := by
  unfold latchBit State.latched
  split
  · next hb => exact (if_pos hb).symm
  · next hb =>
    refine Eq.trans ?_ (if_neg hb).symm
    exact queueUp_of_room (s := s.withWake _) _ h

theorem stormCounts_of_disabled {src : Source} (h : ticks s.wake.window = 0) : s.stormCounts src = false := by
  simp [State.stormCounts, State.stormEnabled, h]

theorem latchBit_stormCounts (src : Source) (s : State) : (latchBit src s).stormCounts src = s.stormCounts src := by
  have hw : (latchBit src s).wake.window = s.wake.window ∧ (latchBit src s).wake.enable = s.wake.enable ∧
      (latchBit src s).wake.suppressed = s.wake.suppressed ∧ (latchBit src s).ldr = s.ldr := by
    unfold latchBit
    split
    · exact ⟨rfl, rfl, rfl, rfl⟩
    · rw [queueUp_wake, queueUp_ldr]
      exact ⟨rfl, rfl, rfl, rfl⟩
  obtain ⟨h1, h2, h3, h4⟩ := hw
  unfold State.stormCounts State.stormEnabled State.isLoading
  rw [h1, h2, h3, h4]

theorem latchBit_armed (src : Source) (s : State) : (latchBit src s).wake.armed = s.wake.armed := by
  unfold latchBit
  split
  · rfl
  · rw [queueUp_wake]
    rfl

/-- A latch event that is not counted goes on to the armed latch (R91). -/
theorem latchFrom_of_uncounted {src : Source} (left : Departed) (h : s.stormCounts src = false) :
    latchFrom src (s, left) = armStep src left (latchBit src s) := by
  show armStep src left (stormStep src (latchBit src s)) = _
  unfold stormStep
  rw [if_neg (by rw [latchBit_stormCounts, h]; decide)]

theorem armStep_unarmed {src : Source} (left : Departed) (ha : s.wake.armed.getLsbD src.val = false) :
    armStep src left (latchBit src s) = (latchBit src s, left) :=
  if_neg (by rw [hasBit, latchBit_armed, ha]; decide)

/-- A latch event of a source that is not armed, with the Storm Monitor disabled, writes the Wake Latch alone (R91). -/
theorem latchFrom_unarmed (src : Source) (left : Departed) (hw : ticks s.wake.window = 0)
    (ha : s.wake.armed.getLsbD src.val = false) : latchFrom src (s, left) = (latchBit src s, left) := by
  rw [latchFrom_of_uncounted left (stormCounts_of_disabled hw), armStep_unarmed left ha]

theorem latchFrom_latched (src : Source) (left : Departed) (hw : ticks s.wake.window = 0)
    (ha : s.wake.armed.getLsbD src.val = false) (h : s.UpRoom) : latchFrom src (s, left) = (s.latched src, left) := by
  rw [latchFrom_unarmed src left hw ha, latchBit_of_room src h]

/-! ## CLEAR of sources -/

theorem diff_of_and_zero {x y : SourceSet} (h : x &&& y = 0#16) : x &&& ~~~y = x := by
  apply BitVec.eq_of_getLsbD_eq
  intro i hi
  have hb := congrArg (fun z : SourceSet => z.getLsbD i) h
  simp at hb ⊢
  intro hx
  exact ⟨hi, by simpa [hx] using hb⟩

/-- The Armed set that a CLEAR of the Suppressed set leaves with no loading in progress (R98). -/
def State.armedAfterClear (s : State) : SourceSet :=
  match s.eng.platform with
  | .rest y | .entering y => s.armedFor y
  | .working | .unwinding _ | .waking _ | .forcing => s.wake.armed

theorem rearmAfterClear_eq (h : s.isLoading = false) :
    rearmAfterClear s = s.withWake { s.wake with armed := s.armedAfterClear } := by
  unfold rearmAfterClear State.armedAfterClear
  rw [rearmAtRest_eq h]
  unfold State.armedAtRest
  cases s.eng.platform <;> rfl

/-- Settles O27. -/
theorem clearsOfSourcesRemoveThem : Obligations.ClearsOfSourcesRemoveThem := by
  refine fun s f x h hk => ⟨fun hp hr hq => ?_, fun hp => ?_⟩
  · have hs : serveClear 0x08#8 clearLatch s = clearLatch x (s.answered f [0#8]) := by
      rw [h.serveClear 0x08#8 clearLatch hk _ _ hp, word16_bytes16]
    refine congrArg Host.Outcome.next (hs.trans ?_)
    show endEvent (relatch _ (State.withWake _ _, .start _)) = _
    rw [relatch_inactive _ _ fun k _ => hq k]
    exact endEvent_start_of_railsGood (hr.congr rfl rfl)
  · have hs : serveClear 0x20#8 clearSuppression s = clearSuppression x (s.answered f [0#8]) := by
      rw [h.serveClear 0x20#8 clearSuppression hk _ _ hp, word16_bytes16]
    have hload : s.isLoading = false := isLoading_false.2 h.loaded
    refine ⟨_, congrArg Host.Outcome.next hs, ?_⟩
    by_cases h0 : s.wake.suppressed &&& x = 0#16
    · rw [show clearSuppression x (s.answered f [0#8]) = s.answered f [0#8] from if_pos h0]
      refine ⟨?_, fun src => ?_, (if_pos h0).symm⟩
      · rw [diff_of_and_zero h0]
        rfl
      · have hb := congrArg (fun z : SourceSet => z.getLsbD src.val) h0
        have hnot : (x.getLsbD src.val && s.wake.suppressed.getLsbD src.val) = false := by
          rw [Bool.and_comm]
          simpa using hb
        rw [hnot]
        rfl
    · rw [show clearSuppression x (s.answered f [0#8]) = rearmAfterClear ((s.answered f [0#8]).withWake { s.wake with
          suppressed := diff s.wake.suppressed x,
          stormCount := Vector.ofFn fun src =>
            if hasBit (s.wake.suppressed &&& x) src then 0 else s.wake.stormCount[src] }) from if_neg h0]
      rw [rearmAfterClear_eq ?_]
      swap
      · exact hload
      refine ⟨rfl, fun src => ?_, Eq.trans ?_ (if_neg h0).symm⟩
      · show (Vector.ofFn fun src : Source => if hasBit (s.wake.suppressed &&& x) src then 0 else s.wake.stormCount[src])[src] = _
        simp only [Fin.getElem_fin, Vector.getElem_ofFn, hasBit, BitVec.getLsbD_and]
        rw [Bool.and_comm]
      · show State.armedAfterClear _ = _
        unfold State.armedAfterClear
        simp only [withWake_eng, show (s.answered f [0#8]).eng = s.eng from rfl]
        cases s.eng.platform
        case rest y => cases y <;> rfl
        case entering y => cases y <;> rfl
        all_goals rfl

/-! ## CLEAR of rail faults -/

/-- What a CLEAR makes of a named domain's status (R157). -/
def State.clearedStatus (s : State) (d : Domain) : DomainStatus :=
  if s.dom.status[d].fault = .noFault then s.dom.status[d]
  else if ticks (s.config d).blanking = 0 then { s.dom.status[d] with fault := .noFault, blanking := none }
  else { s.dom.status[d] with fault := .qualifying, blanking := some (ticks (s.config d).blanking) }

theorem clearedStatus_congr {t : State} {d : Domain} (h : t.dom.status[d] = s.dom.status[d]) (hc : t.config d = s.config d) :
    t.clearedStatus d = s.clearedStatus d := by
  unfold State.clearedStatus
  rw [h, hc]

theorem clearRail_eq (d : Domain) (s : State) : clearRail d s = s.withStatus d (s.clearedStatus d) := by
  have hself : s.withStatus d s.dom.status[d] = s := by
    unfold State.withStatus
    rw [vector_set_self]
    rfl
  cases hf : s.dom.status[d].fault with
  | noFault =>
    simp only [clearRail, State.clearedStatus, hf, if_true]
    exact hself.symm
  | latched | qualifying =>
    by_cases ht : ticks (s.config d).blanking = 0
    · simp only [clearRail, State.clearedStatus, hf, startTimer, ht, reduceCtorEq, if_true, if_false]
    · simp only [clearRail, State.clearedStatus, hf, startTimer, ht, reduceCtorEq, if_false]

theorem clearRails_fold (l : List Domain) (s : State) (hl : l.Nodup) :
    ∃ status, l.foldl (fun s d => clearRail d s) s = s.withDom { s.dom with status := status } ∧
      ∀ d : Domain, status[d] = if d ∈ l then s.clearedStatus d else s.dom.status[d] := by
  induction l generalizing s with
  | nil => exact ⟨s.dom.status, rfl, fun d => by simp⟩
  | cons a l ih =>
    rw [List.nodup_cons] at hl
    obtain ⟨status, heq, hst⟩ := ih (s.withStatus a (s.clearedStatus a)) hl.2
    have hother (d : Domain) (hd : d ≠ a) : (s.withStatus a (s.clearedStatus a)).dom.status[d] = s.dom.status[d] := by
      rw [withStatus_status, if_neg hd]
    refine ⟨status, ?_, fun d => ?_⟩
    · rw [List.foldl_cons, clearRail_eq, heq]
      rfl
    · rw [hst d]
      by_cases hda : d = a
      · subst hda
        rw [if_neg hl.1, if_pos List.mem_cons_self, withStatus_status, if_pos rfl]
      · have hc : (s.withStatus a (s.clearedStatus a)).clearedStatus d = s.clearedStatus d :=
          clearedStatus_congr (hother d hda) rfl
        rw [hother d hda, hc]
        simp [hda]

theorem railFaulty_of_line {d : Domain} (h : ∀ l, (s.config d).pgLine = some l → s.pgLevel l = true) : s.railFaulty d = false := by
  unfold State.railFaulty
  cases hp : (s.config d).pgLine with
  | none => simp
  | some l => simp [h l hp]

theorem railFaulty_of_fault {d : Domain} (h : s.dom.status[d].fault ≠ .noFault) : s.railFaulty d = false := by
  have h' : decide (s.dom.status[d].fault = .noFault) = false := decide_eq_false h
  rw [State.railFaulty, h']
  simp

theorem monitorFrom_none {n : Nat} {p : State × Departed} (h : ∀ d, p.1.railFaulty d = false) : monitorFrom n p = p := by
  cases n with
  | zero => rfl
  | succ n =>
    have hf : allDomains.find? p.1.railFaulty = none := List.find?_eq_none.2 fun d _ => by simp [h d]
    simp [monitorFrom, hf]

/-- The Monitor's test where one domain alone is faulty (R153). -/
theorem monitorFrom_one {n : Nat} {p : State × Departed} {d : Domain} (hd : p.1.railFaulty d = true)
    (hother : ∀ e, e ≠ d → p.1.railFaulty e = false) : monitorFrom (n + 1) p = monitorFrom n (latchRail d p) := by
  have hf : allDomains.find? p.1.railFaulty = some d := by
    rw [List.find?_eq_some_iff_append]
    obtain ⟨as, bs, hab⟩ := List.append_of_mem (mem_allDomains d)
    refine ⟨hd, as, bs, hab, fun e he => ?_⟩
    have hnd : allDomains.Nodup := by decide
    rw [hab] at hnd
    have hne : e ≠ d := fun hed => (List.nodup_append.1 hnd).2.2 e he d List.mem_cons_self hed
    simp [hother e hne]
  simp [monitorFrom, hf]

/-- A rail fault has latched: the field and the cause (R153). -/
def State.railLatched (s : State) (d : Domain) : State :=
  s.withStatus d { s.dom.status[d] with fault := .latched, lastCause := some .pgLost }

theorem railLatched_status (s : State) (d e : Domain) : (s.railLatched d).dom.status[e] =
    if e = d then { s.dom.status[e] with fault := .latched, lastCause := some .pgLost } else s.dom.status[e] := by
  rw [State.railLatched, withStatus_status]
  split
  · next he => rw [he]
  · rfl

theorem writeLatched (d : Domain) (s : State) : writeCause d .pgLost (writeFault d .latched s) = s.railLatched d := by
  unfold writeCause writeFault State.railLatched
  rw [withStatus_status, if_pos rfl]
  unfold State.withStatus
  simp only [State.withDom, Fin.getElem_fin, Vector.set_set]

/-- The latch under REPORT (R154). -/
theorem latchRail_of_report {d : Domain} (left : Departed) (hp : (s.config d).policy = .report) (hroom : s.UpRoom) :
    latchRail d (s, left) =
      (if s.dom.linkUp then (s.railLatched d).upQueued (railNotice d) else s.railLatched d, left) := by
  simp only [latchRail, hp, writeLatched]
  exact congrArg (·, left) (queueUp_of_room (s := s.railLatched d) _ hroom)

/-- Settles O28. -/
theorem clearOfRailFaultsFollowsTheTable : Obligations.ClearOfRailFaultsFollowsTheTable := by
  intro s f x table h hk hp htable
  let named := allDomains.filter fun d => x.getLsbD d.val
  obtain ⟨status, hfold, hstatus⟩ := clearRails_fold named (s.answered f [0#8]) ((by decide : allDomains.Nodup).filter _)
  have hst (d : Domain) : status[d] = table d := by
    rw [hstatus d, htable d]
    have hmem : d ∈ named ↔ x.getLsbD d.val = true := by simp [named, mem_allDomains]
    by_cases hx : x.getLsbD d.val = true
    · rw [if_pos (hmem.2 hx)]
      unfold State.clearedStatus
      simp only [hx, Bool.true_eq_false, false_or]
      rfl
    · rw [if_neg (fun hm => hx (hmem.1 hm)), if_pos (.inl (by simpa using hx))]
      rfl
  let u : State := { s.answered f [0#8] with dom := { s.dom with status := status } }
  have hexec : exec .clearRailFaults s = .next (monitor u) := by
    have hs : serveClear 0x21#8 clearRails s = clearRails x (s.answered f [0#8]) := by
      rw [h.serveClear 0x21#8 clearRails hk _ _ hp, word16_bytes16]
    exact congrArg Host.Outcome.next (hs.trans (congrArg monitor hfold))
  refine ⟨fun hr => ⟨status, ?_, hst⟩, fun d l hx hfault hb hpol hmon hpg hlev hrun hundo hroom hrails => ?_⟩
  · rw [hexec]
    exact congrArg Host.Outcome.next (monitor_of_railsGood (s := u) (hr.congr rfl rfl))
  · have hd : status[d] = { s.dom.status[d] with fault := .noFault, blanking := none } := by
      rw [hst d, htable d, if_neg (not_or.2 ⟨by rw [hx]; decide, hfault⟩), if_pos hb]
    have hfaulty : u.railFaulty d = true := by
      have hud : u.dom.status[d] = { s.dom.status[d] with fault := .noFault, blanking := none } := hd
      have hrec : u.recorded d = s.recorded d := by
        unfold State.recorded
        rw [hud]
      have hfl : u.inFlight d = false := by
        show (s.eng.running.any _ || s.eng.undo.any _) = false
        simp [hrun, hundo]
      have hcfg : u.config d = s.config d := rfl
      have hpl : u.pgLevel l = false := hlev
      simp [State.railFaulty, State.monitored, hcfg, hpg, hrec, hmon, hfl, hud, hpl]
    have hgood (e : Domain) (he : e ≠ d) : u.railFaulty e = false := railFaulty_of_line fun k hk => hrails e k he hk
    let last := u.railLatched d
    have hroom' : u.UpRoom := fun _ => by
      rw [upstreamPlaces_of_free (s := u) h.free]
      show (s.up.own ++ [_]).length < 24
      simp; omega
    have hlatch : latchRail d (u, .start u) = (last.upQueued (railNotice d), .start u) := by
      rw [latchRail_of_report (s := u) _ hpol hroom', if_pos h.link]
    have hlast (e : Domain) : last.dom.status[e] =
        if e = d then ⟨s.recorded d, .latched, some .pgLost, none⟩ else status[e] := by
      rw [railLatched_status]
      by_cases he : e = d
      · subst he
        rw [if_pos rfl, if_pos rfl, show u.dom.status[e] = status[e] from rfl, hd]
        rfl
      · rw [if_neg he, if_neg he]
    have hnone (e : Domain) : (last.upQueued (railNotice d)).railFaulty e = false := by
      by_cases he : e = d
      · subst he
        refine railFaulty_of_fault ?_
        show last.dom.status[e].fault ≠ .noFault
        rw [hlast e, if_pos rfl]
        simp
      · exact railFaulty_of_line fun k hk => hrails e k he hk
    have hend : monitor u = last.upQueued (railNotice d) := by
      have hm : monitorFrom 12 (u, .start u) = (last.upQueued (railNotice d), .start u) := by
        have h1 := monitorFrom_one (n := 11) (p := (u, .start u)) hfaulty hgood
        rw [hlatch] at h1
        exact h1.trans (monitorFrom_none (p := (last.upQueued (railNotice d), .start u)) hnone)
      unfold monitor endEvent
      rw [hm]
      exact reclassify_start u (last.upQueued (railNotice d))
    refine ⟨last.dom.status, ?_, ?_, fun e he => ?_⟩
    · rw [hexec, hend]
      rfl
    · rw [hlast d, if_pos rfl]
    · rw [hlast e, if_neg he, hst e]

end Sys2Proof.Machine
end

section
/-! SUPPORT. The CLEAR of counters, requests whose selector no command takes, and level-mode lines (R166, R168, R114, R115). The
statements O29 and O30 are settled here. -/

namespace Sys2Proof.Machine

variable {s : State} {f : Frame}

/-! ## Requests whose selector is not taken -/

theorem exec_badSelector (h : s.Waiting f) (hk : f.kind = .set ∨ f.kind = .get ∨ f.kind = .clear)
    (hn : f.payload.head?.any (takesSelector f.kind) = false) :
    exec .managementRequestBadSelector s = .next (s.answered f [(badSelectorResult s f).code]) := by
  have hgo : f.kind ≠ .go := by obtain hk | hk | hk := hk <;> simp [hk]
  have hr : s.request = some f := h.request (by tauto)
  show Host.Outcome.next (match s.request with
    | none => s
    | some f => if f.kind = Kind.go ∨ f.payload.head?.any (takesSelector f.kind) = true then s
      else answer f (badSelectorResult s f) [] (popUp s)) = _
  rw [hr]
  refine congrArg Host.Outcome.next ((if_neg ?_).trans (h.answer (badSelectorResult s f) []))
  rw [hn]
  simp [hgo]

theorem badSelectorResult_busy (hk : f.kind = .set) (ht : s.eng.platform.transitional = true) :
    badSelectorResult s f = .busy := if_pos ⟨hk, ht⟩

/-- Outside BUSY the length decides (R166). -/
theorem badSelectorResult_length (ht : f.kind = .set → s.eng.platform.transitional = false) :
    badSelectorResult s f = if badLength f.kind f.payload then .badKind else .badSelect :=
  if_neg fun hb => by simp [ht hb.1] at hb

/-- The result of a length that is right or not. -/
theorem badLength_code {k : Kind} {payload : List Byte} (p : Prop) [Decidable p] (h : badLength k payload = !decide p) :
    (if badLength k payload then ResultCode.badKind else .badSelect).code = if p then 2#8 else 4#8 := by
  rw [h]
  by_cases hp : p <;> simp [hp, ResultCode.code]

theorem objectItems_none {selector : Byte} (h : selector = 0#8 ∨ 0x16#8 < selector) : objectItems selector = none := by
  revert selector
  decide

theorem takesSelector_get {selector : Byte} (h : selector = 0#8 ∨ 0x15#8 < selector) : takesSelector .get selector = false := by
  revert selector
  decide

theorem takesSelector_set_none {selector : Byte} (h : selector = 0#8 ∨ 0x16#8 < selector) :
    takesSelector .set selector = false := by
  revert selector
  decide

/-- Objects that only a GET reads, without items (R167). -/
theorem getOnly_whole {selector : Byte} {size : Nat} (h : (selector, size) ∈ [(0x08#8, 9), (0x09#8, 15), (0x0A#8, 10),
    (0x0F#8, 11), (0x10#8, 8), (0x12#8, 2), (0x13#8, 6), (0x15#8, 1)]) :
    takesSelector .set selector = false ∧ objectItems selector = some (size, false) := by
  simp only [List.mem_cons, Prod.mk.injEq, List.not_mem_nil, or_false] at h
  obtain ⟨rfl, rfl⟩ | ⟨rfl, rfl⟩ | ⟨rfl, rfl⟩ | ⟨rfl, rfl⟩ | ⟨rfl, rfl⟩ | ⟨rfl, rfl⟩ | ⟨rfl, rfl⟩ | ⟨rfl, rfl⟩ := h <;>
    exact ⟨rfl, rfl⟩

/-- Objects that only a GET reads, with items (R167). -/
theorem getOnly_items {selector : Byte} {size : Nat} (h : (selector, size) ∈ [(0x04#8, 2), (0x11#8, 5)]) :
    takesSelector .set selector = false ∧ objectItems selector = some (size, true) := by
  simp only [List.mem_cons, Prod.mk.injEq, List.not_mem_nil, or_false] at h
  obtain ⟨rfl, rfl⟩ | ⟨rfl, rfl⟩ := h <;> exact ⟨rfl, rfl⟩

/-- Settles O29. -/
theorem clearOfCountersAndBadSelectors : Obligations.ClearOfCountersAndBadSelectors := by
  refine fun s f h => ⟨fun x hk hp => ?_, fun result hcase => ?_⟩
  · have hs : serveClear 0x13#8 clearCounters s = clearCounters x (s.answered f [0#8]) := by
      rw [h.serveClear 0x13#8 clearCounters hk _ _ hp, word16_bytes16]
    exact congrArg Host.Outcome.next hs
  obtain ⟨hk, ht, rfl, hp⟩ | ⟨hk, ht, hp⟩ := hcase
  · have hn : f.payload.head?.any (takesSelector f.kind) = false := by
      obtain hp | ⟨selector, rest, hp, hsel⟩ := hp
      · rw [hp]
        rfl
      · rw [hp, hk]
        exact decide_eq_false hsel
    rw [exec_badSelector h (.inl hk) hn, badSelectorResult_busy hk ht]
    rfl
  have hk3 : f.kind = .set ∨ f.kind = .get ∨ f.kind = .clear := by simpa using hk
  obtain ⟨hp, rfl⟩ | ⟨selector, rest, hp, hcase⟩ := hp
  · rw [exec_badSelector h hk3 (by rw [hp]; rfl), badSelectorResult_length ht, hp]
    rfl
  suffices hmain : takesSelector f.kind selector = false ∧ ∃ p : Prop, ∃ _ : Decidable p,
      badLength f.kind (selector :: rest) = !decide p ∧ result = if p then 2#8 else 4#8 by
    obtain ⟨htake, p, _, hlen, rfl⟩ := hmain
    rw [exec_badSelector h hk3 (by rw [hp]; exact htake), badSelectorResult_length ht, hp, badLength_code p hlen]
  obtain ⟨hg, hsel, rfl⟩ | ⟨hg, rfl, rfl⟩ | ⟨hc, hsel, rfl⟩ | ⟨hset, hsel, rfl⟩ | ⟨hset, size, hsel, rfl⟩ |
    ⟨hset, hsel, hlen, rfl⟩ | ⟨size, first, count, data, hset, hsel, rfl, rfl⟩ := hcase
  · rw [hg]
    refine ⟨takesSelector_get (hsel.imp_right fun hlt => by bv_omega), True, inferInstance, ?_, rfl⟩
    simp only [badLength, objectItems_none hsel]
    rfl
  · rw [hg]
    refine ⟨rfl, rest = [], inferInstance, ?_, rfl⟩
    cases rest <;> rfl
  · rw [hc]
    refine ⟨decide_eq_false hsel, rest.length = 2, inferInstance, ?_, rfl⟩
    simp [badLength]
  · rw [hset]
    refine ⟨takesSelector_set_none hsel, True, inferInstance, ?_, rfl⟩
    simp only [badLength, objectItems_none hsel]
    rfl
  · obtain ⟨htake, hobj⟩ := getOnly_whole hsel
    rw [hset]
    refine ⟨htake, rest.length = size, inferInstance, ?_, rfl⟩
    simp only [badLength, hobj]
    simp
  · obtain ⟨size, hmem⟩ : ∃ size, (selector, size) ∈ [(0x04#8, 2), (0x11#8, 5)] := by
      simp only [List.mem_cons, List.not_mem_nil, or_false] at hsel
      obtain rfl | rfl := hsel
      · exact ⟨2, by simp⟩
      · exact ⟨5, by simp⟩
    obtain ⟨htake, hobj⟩ := getOnly_items hmem
    rw [hset]
    refine ⟨htake, False, inferInstance, ?_, rfl⟩
    match rest, hlen with
    | [], _ | [_], _ => simp only [badLength, hobj]; rfl
  · obtain ⟨htake, hobj⟩ := getOnly_items hsel
    rw [hset]
    refine ⟨htake, data.length = size * count.toNat, inferInstance, ?_, rfl⟩
    simp only [badLength, hobj]
    simp

/-! ## Level-mode lines -/

theorem latchBit_qual (src : Source) (s : State) : (latchBit src s).qual = s.qual := by
  unfold latchBit
  split
  · rfl
  · rw [queueUp_qual]
    rfl

theorem latchBit_dom (src : Source) (s : State) : (latchBit src s).dom = s.dom := by
  unfold latchBit
  split
  · rfl
  · rw [queueUp_dom]
    rfl

theorem latchBit_eng (src : Source) (s : State) : (latchBit src s).eng = s.eng := by
  unfold latchBit
  split
  · rfl
  · rw [queueUp_eng]
    rfl

theorem latchBit_mon (src : Source) (s : State) : (latchBit src s).mon = s.mon := by
  unfold latchBit
  split
  · rfl
  · rw [queueUp_mon]
    rfl

theorem latchBit_clear {src : Source} (h : s.wake.latch.getLsbD src.val = false) :
    (latchBit src s).wake = { s.wake with latch := setBit s.wake.latch src, generation := s.wake.generation + 1#16 } := by
  unfold latchBit
  rw [if_neg (by rw [hasBit, h]; decide), queueUp_wake]
  rfl

theorem level_active {q : LineQualifier} (h : q.mode = if q.level then .high else .low) : q.active = true := by
  unfold LineQualifier.active
  rw [h]
  cases q.level <;> simp

theorem lineBit_getLsbD (k : WakeLine) (i : Source) :
    (BitVec.twoPow 16 (k.val + 2)).getLsbD i.val = decide (i = lineSource k) := by
  revert k i
  decide

theorem mem_allWakeLines (k : WakeLine) : k ∈ allWakeLines := by
  revert k
  decide

theorem lineSource_inj (j k : WakeLine) : lineSource j = lineSource k ↔ j = k := by
  revert j k
  decide

/-- One line alone latches again where its bit alone has been cleared (R114). -/
theorem relatch_one {k : WakeLine} {p : State × Departed} (ha : (p.1.qual.lines[k]).active = true) :
    relatch (BitVec.twoPow 16 (k.val + 2)) p = latchFrom (lineSource k) p := by
  have hbit (j : WakeLine) : hasBit (BitVec.twoPow 16 (k.val + 2)) (lineSource j) = decide (j = k) :=
    (lineBit_getLsbD k (lineSource j)).trans (decide_eq_decide.2 (lineSource_inj j k))
  have hskip (l : List WakeLine) (hl : k ∉ l) (p : State × Departed) :
      l.foldl (fun p j => if hasBit (BitVec.twoPow 16 (k.val + 2)) (lineSource j) && (p.1.qual.lines[j]).active
        then latchFrom (lineSource j) p else p) p = p := by
    induction l generalizing p with
    | nil => rfl
    | cons j l ih =>
      have hne : j ≠ k := fun hj => hl (hj ▸ List.mem_cons_self)
      rw [List.foldl_cons, hbit j, decide_eq_false hne]
      exact ih (fun hm => hl (List.mem_cons_of_mem j hm)) p
  obtain ⟨as, bs, hab⟩ := List.append_of_mem (mem_allWakeLines k)
  have hnd : allWakeLines.Nodup := by decide
  rw [hab] at hnd
  have has : k ∉ as := fun hm => (List.nodup_append.1 hnd).2.2 k hm k List.mem_cons_self rfl
  have hbs : k ∉ bs := (List.nodup_cons.1 (List.nodup_append.1 hnd).2.1).1
  unfold relatch
  rw [hab, List.foldl_append, hskip as has, List.foldl_cons, hbit k, hskip bs hbs]
  rw [decide_eq_true rfl, ha]
  rfl

/-- Settles O30. -/
theorem levelModeLinesLatchAtSetAndAtClear : Obligations.LevelModeLinesLatchAtSetAndAtClear := by
  refine fun s f k h hw hr hwin harm => ⟨fun code hk hroom hclear hp => ?_, fun hk hp hset hmode => ?_⟩
  · let mode : LineMode := if s.qual.lines[k].level then .high else .low
    have ht : s.eng.platform.transitional = false := by rw [hw]; rfl
    have hdec : lineOfBytes [if s.qual.lines[k].level then 3#8 else 4#8, code] = some (mode, code) := by
      simp only [mode]
      cases s.qual.lines[k].level <;> rfl
    have hc : checkLines s f.payload = .ok (.lineQualifiers k.val [(mode, code)]) := by
      have hi := checkItems_ok_of_items (size := 2) (limit := 8) (lowest := 0) (highest := 7) (first := k.val)
        (decode := lineOfBytes) (write := SetWrite.lineQualifiers) 0x0B#8
        (bytes := fun _ : Unit => [if s.qual.lines[k].level then 3#8 else 4#8, code]) (fun _ => rfl) [()] (by simp) (by simp)
        (Nat.zero_le _) (by simp) (by omega) (by simp) (fun _ => (mode, code)) (fun _ _ => hdec)
      rw [hp]
      exact hi
    let q := s.qual.lines[k].rewritten (mode, code)
    let u : State := { s.answered f [0#8] with qual := { s.qual with lines := s.qual.lines.set k q } }
    have hact : q.active = true := level_active rfl
    have hwrite : writeLines k.val [(mode, code)] (s.answered f [0#8], Departed.start (s.answered f [0#8])) =
        (u.latched (lineSource k), Departed.start (s.answered f [0#8])) := by
      have hstep : writeLines k.val [(mode, code)] (s.answered f [0#8], Departed.start (s.answered f [0#8])) =
          if q.active then latchFrom (lineSource k) (u, Departed.start (s.answered f [0#8]))
          else (u, Departed.start (s.answered f [0#8])) := dif_pos k.isLt
      rw [hstep, if_pos hact]
      refine latchFrom_latched _ _ hwin (by show BitVec.getLsbD s.wake.armed _ = false; rw [harm]; simp) fun _ => ?_
      rw [upstreamPlaces_of_free (s := u) h.free]
      show (s.up.own ++ [_]).length < 24
      simp; omega
    have hlatched : u.latched (lineSource k) = { u with
        wake := { s.wake with latch := s.wake.latch ||| BitVec.twoPow 16 (k.val + 2), generation := s.wake.generation + 1#16 },
        up := { u.up with own := u.up.own ++ [⟨0#6, 63#6, .event, 0#4, false,
          [0#8, BitVec.ofNat 8 (k.val + 2)] ++ bytes16 (s.wake.generation + 1#16)⟩] } } := by
      have hb : ¬ u.wake.latch.getLsbD (lineSource k).val = true := by
        show ¬ s.wake.latch.getLsbD (k.val + 2) = true
        simp [hclear]
      unfold State.latched
      rw [if_neg hb]
      exact if_pos h.link
    refine ⟨u.latched (lineSource k), ?_, ?_⟩
    · refine (congrArg Host.Outcome.next (serveSet_ok h hk ht hp writeAndTest hc)).trans (congrArg Host.Outcome.next ?_)
      show endEvent (writeLines k.val [(mode, code)] (s.answered f [0#8], Departed.start (s.answered f [0#8]))) = _
      rw [hwrite]
      exact endEvent_start_of_railsGood (hr.congr (by rw [hlatched]; rfl) (by rw [hlatched]; rfl))
    · rw [hlatched]
      have hline : (s.qual.lines.set k q)[k] = q := by rw [vector_getElem_set, if_pos rfl]
      refine ⟨congrArg LineQualifier.mode hline, congrArg LineQualifier.filter hline, rfl, rfl, ?_, rfl, rfl⟩
      show (s.up.own ++ [_]) ++ [_] = _
      rw [List.append_assoc]
      rfl
  · let u : State := (s.answered f [0#8]).withWake { s.wake with latch := diff s.wake.latch (BitVec.twoPow 16 (k.val + 2)) }
    have hs : serveClear 0x08#8 clearLatch s = clearLatch (BitVec.twoPow 16 (k.val + 2)) (s.answered f [0#8]) := by
      rw [h.serveClear 0x08#8 clearLatch hk _ _ hp, word16_bytes16]
    have hand : s.wake.latch &&& BitVec.twoPow 16 (k.val + 2) = BitVec.twoPow 16 (k.val + 2) := by
      rw [BitVec.and_twoPow, hset]
      rfl
    have hgone : (diff s.wake.latch (BitVec.twoPow 16 (k.val + 2))).getLsbD (k.val + 2) = false := by
      have hd := diff_getLsbD s.wake.latch (BitVec.twoPow 16 (k.val + 2)) (lineSource k)
      rw [lineBit_getLsbD, decide_eq_true rfl, Bool.not_true, Bool.and_false] at hd
      exact hd
    have hre : relatch (BitVec.twoPow 16 (k.val + 2)) (u, .start u) = (latchBit (lineSource k) u, .start u) := by
      rw [relatch_one (level_active hmode)]
      exact latchFrom_unarmed _ _ hwin (by show BitVec.getLsbD s.wake.armed _ = false; rw [harm]; simp)
    have hwake := latchBit_clear (s := u) (src := lineSource k) hgone
    refine ⟨latchBit (lineSource k) u, ?_, ?_, ?_, ?_, ?_, ?_⟩
    · refine congrArg Host.Outcome.next (hs.trans ?_)
      show endEvent (relatch (s.wake.latch &&& BitVec.twoPow 16 (k.val + 2)) (u, .start u)) = _
      rw [hand, hre]
      exact endEvent_start_of_railsGood (hr.congr (congrArg DomainTable.config (latchBit_dom _ u)) (latchBit_mon _ u))
    · rw [hwake]
      show setBit (diff s.wake.latch (BitVec.twoPow 16 (k.val + 2))) (lineSource k) = s.wake.latch
      refine set_ext fun i => ?_
      rw [setBit_getLsbD, diff_getLsbD, lineBit_getLsbD]
      by_cases hi : i = lineSource k
      · subst hi
        have hset' : s.wake.latch.getLsbD (lineSource k).val = true := hset
        rw [decide_eq_true rfl, Bool.or_true, hset']
      · rw [decide_eq_false hi, Bool.or_false, Bool.not_false, Bool.and_true]
    · rw [hwake]
      rfl
    · rw [latchBit_eng]
      rfl
    · rw [latchBit_dom]
      rfl
    · rw [latchBit_qual]
      rfl

end Sys2Proof.Machine
end

section
/-! SUPPORT. The Traffic Gate's tests, the Matcher's scan and what becomes of a message (R128, R132 to R135, R139 to R142). The
statements O31, O35 and O36 are settled here. -/

namespace Sys2Proof.Machine

variable {s : State} {f : Frame}

/-! ## Downstream messages -/

theorem upRoom_of_lt {t : State} (hroom : s.up.own.length < 23) (hu : t.up.own = s.up.own) :
    t.up.own.length < t.upstreamPlaces := by
  rw [hu]
  unfold State.upstreamPlaces
  split <;> omega

section
variable (h : s.DownMessage f)
include h

theorem State.DownMessage.downTraffic : s.downTraffic = some f := by
  have hr : routeUp f = .gate := by
    unfold routeUp
    rw [if_neg (by simp [h.source, h.proxy]), if_neg h.destHigh, if_neg h.destLow, if_pos h.kind]
  have hi : s.up.input = f :: s.up.input.tail := by
    have hh := h.head
    cases hs : s.up.input with
    | nil => simp [hs] at hh
    | cons a l => simp_all
  unfold State.downTraffic
  rw [if_pos (by simp [h.link, State.isLoading, h.loaded, h.free]), hi]
  exact if_pos hr

theorem exec_downstreamTraffic : exec .downstreamTraffic s = .next (gateDown f s.upTaken) := by
  show Host.Outcome.next (match s.downTraffic with
    | some f => gateDown f (popUp s)
    | none => s) = _
  rw [h.downTraffic]
  rfl

theorem traffic_forwarded (hd : disposeDown s f = .forward) :
    exec .downstreamTraffic s = .next { s.upTaken with down := { s.down with forwarded := some f } } := by
  have hd' : disposeDown s.upTaken f = .forward := hd
  rw [exec_downstreamTraffic h, gateDown, hd']
  rfl

variable (hroom : s.up.own.length < 23)
include hroom

theorem traffic_refused (hd : disposeDown s f = .refuse) : exec .downstreamTraffic s = .next (s.downRefused f) := by
  have hd' : disposeDown s.upTaken f = .refuse := hd
  rw [exec_downstreamTraffic h, gateDown, hd']
  show Host.Outcome.next (refuseDown f s.upTaken) = _
  unfold refuseDown State.downRefused
  by_cases ha : f.kind = .ask
  · rw [if_pos ⟨ha, h.link⟩, if_pos ha]
    exact congrArg Host.Outcome.next (queueUp_of_up (s := s.upTaken) _ h.link (upRoom_of_lt hroom rfl))
  · rw [if_neg (fun hb => ha hb.1), if_neg ha]
    rfl

theorem traffic_held {b : Bool} (hd : disposeDown s f = .hold)
    (hb : (s.gate.hold.any fun r => !r.up && decide (r.frame.dest = f.dest) && r.releasable) = b) :
    exec .downstreamTraffic s = .next (s.downHeld f b) := by
  have hd' : disposeDown s.upTaken f = .hold := hd
  rw [exec_downstreamTraffic h, gateDown, hd', ← hb]
  show Host.Outcome.next (holdDown f s.upTaken) = _
  unfold holdDown State.downHeld
  by_cases hl : s.gate.hold.length < 16
  · rw [if_pos (show s.upTaken.gate.hold.length < 16 from hl), if_pos hl]
    rfl
  · rw [if_neg (show ¬ s.upTaken.gate.hold.length < 16 from hl), if_neg hl]
    by_cases ha : f.kind = .ask
    · rw [if_pos ha, if_pos ha]
      exact congrArg Host.Outcome.next (queueUp_of_up (s := countOverflow s.upTaken) _ h.link (upRoom_of_lt hroom rfl))
    · rw [if_neg ha, if_neg ha]
      rfl

end

/-! ## The tests of R139 -/

section
variable {d : Domain} (hm : s.mapped f.dest = some d)
include hm

theorem disposeDown_behind (hr : ∃ r ∈ s.gate.hold, r.up = false ∧ r.frame.dest = f.dest) : disposeDown s f = .hold := by
  obtain ⟨r, hr, hup, hdest⟩ := hr
  simp only [disposeDown, hm]
  exact if_pos (List.any_eq_true.2 ⟨r, hr, by simp [hup, hdest]⟩)

variable (hr : ∀ r ∈ s.gate.hold, r.up = false → r.frame.dest ≠ f.dest)
include hr

/-- With no record held for the destination the later tests decide. -/
theorem disposeDown_first : disposeDown s f =
    if s.eng.platform = .forcing then (if s.recorded d = .on ∨ s.recorded d = .idle then .forward else .refuse)
    else if s.eng.orders.any (fun o => decide (o.domain = d ∧ o.target ≠ .on)) then .refuse
    else if s.eng.orders.any (fun o => decide (o.domain = d ∧ o.target = .on)) then .hold
    else if s.recorded d = .on ∨ s.recorded d = .idle then .forward
    else if s.eng.rising.getLsbD d then .hold
    else .refuse := by
  have hnone : (s.gate.hold.any fun r => !r.up && decide (r.frame.dest = f.dest)) = false := by
    rw [List.any_eq_false]
    intro r hm hb
    simp only [Bool.and_eq_true, Bool.not_eq_true', decide_eq_true_eq] at hb
    exact hr r hm hb.1 hb.2
  simp only [disposeDown, hm, hnone, Bool.false_eq_true, if_false, decide_eq_true_eq]
  rfl

variable (hp : s.eng.platform ≠ .forcing)
include hp

theorem disposeDown_ordered (ho : ∃ o ∈ s.eng.orders, o.domain = d ∧ o.target ≠ .on) : disposeDown s f = .refuse := by
  obtain ⟨o, ho, hd⟩ := ho
  rw [disposeDown_first hm hr, if_neg hp, if_pos (List.any_eq_true.2 ⟨o, ho, decide_eq_true hd⟩)]

variable (hon : ∀ o ∈ s.eng.orders, o.domain = d → o.target = .on)
include hon

theorem disposeDown_second : disposeDown s f =
    if s.eng.orders.any (fun o => decide (o.domain = d ∧ o.target = .on)) then .hold
    else if s.recorded d = .on ∨ s.recorded d = .idle then .forward
    else if s.eng.rising.getLsbD d then .hold
    else .refuse := by
  rw [disposeDown_first hm hr, if_neg hp, if_neg]
  rw [List.any_eq_true]
  rintro ⟨o, ho, hb⟩
  obtain ⟨hd, ht⟩ := of_decide_eq_true hb
  exact ht (hon o ho hd)

theorem disposeDown_rising_order (ho : ∃ o ∈ s.eng.orders, o.domain = d) : disposeDown s f = .hold := by
  obtain ⟨o, ho, hd⟩ := ho
  rw [disposeDown_second hm hr hp hon, if_pos (List.any_eq_true.2 ⟨o, ho, decide_eq_true ⟨hd, hon o ho hd⟩⟩)]

theorem disposeDown_third (ho : ∀ o ∈ s.eng.orders, o.domain ≠ d) : disposeDown s f =
    if s.recorded d = .on ∨ s.recorded d = .idle then .forward
    else if s.eng.rising.getLsbD d then .hold
    else .refuse := by
  rw [disposeDown_second hm hr hp hon, if_neg]
  rw [List.any_eq_true]
  rintro ⟨o, hmem, hb⟩
  exact ho o hmem (of_decide_eq_true hb).1

end

/-! ## Upstream traffic -/

section
variable (h : s.UpMessage f)
include h

theorem State.UpMessage.upTraffic {route : DownRoute} (hr : routeDown f = route) : s.upTraffic route = some f := by
  have hstall : s.upstreamStalled = false := by
    unfold State.upstreamStalled
    cases hl : s.dom.linkUp with
    | false => rfl
    | true =>
      rw [Bool.true_and, List.any_eq_false]
      intro r hr
      simp [h.flowing hl r hr]
  have hi : s.down.input = f :: s.down.input.tail := by
    have hh := h.head
    cases hs : s.down.input with
    | nil => simp [hs] at hh
    | cons a l => simp_all
  unfold State.upTraffic
  rw [if_pos (by simp [hstall, State.isLoading, h.loaded, h.free]), hi]
  exact if_pos hr

theorem exec_upstreamAnswer (hk : f.kind = .answer) : exec .upstreamAnswer s =
    .next (if s.dom.linkUp then forwardUp f s.downTaken else countDiscarded 1 s.downTaken) := by
  have hr : routeDown f = .gate := by
    unfold routeDown
    rw [if_neg (by simp [h.sourceLow, h.sourceHigh, h.proxy]), if_pos h.dest]
    simp [hk]
  show Host.Outcome.next (match s.upTraffic .gate with
    | some f => if s.dom.linkUp then forwardUp f (popDown s) else countDiscarded 1 (popDown s)
    | none => s) = _
  rw [h.upTraffic hr]
  rfl

end

/-- Settles O31. -/
theorem trafficPassesTheGateByTheTables : Obligations.TrafficPassesTheGateByTheTables := by
  refine ⟨fun s f h hroom => ⟨fun hm => traffic_forwarded h (by simp only [disposeDown, hm]), fun d hm =>
    ⟨fun hb => ⟨fun hrel => ?_, fun hrel => ?_⟩, fun hr => ⟨fun hp => ⟨fun hst => ?_, fun h1 h2 => ?_⟩, fun hp =>
      ⟨fun ho => traffic_refused h hroom (disposeDown_ordered hm hr hp ho), fun hon => ⟨fun ho => ?_, fun ho =>
        ⟨fun hst => ?_, fun h1 h2 => ⟨fun hris => ?_, fun hris => ?_⟩⟩⟩⟩⟩⟩⟩, fun s f h hk => ⟨fun hl => ?_, fun hl => ?_⟩⟩
  · refine traffic_held h hroom (disposeDown_behind hm hb) ?_
    obtain ⟨r, hr, hup, hdest, hrel⟩ := hrel
    exact List.any_eq_true.2 ⟨r, hr, by simp [hup, hdest, hrel]⟩
  · refine traffic_held h hroom (disposeDown_behind hm hb) (List.any_eq_false.2 fun r hr hall => ?_)
    simp only [Bool.and_eq_true, Bool.not_eq_true', decide_eq_true_eq] at hall
    simp [hrel r hr hall.1.1 hall.1.2] at hall
  · exact traffic_forwarded h (by rw [disposeDown_first hm hr, if_pos hp, if_pos hst])
  · exact traffic_refused h hroom (by rw [disposeDown_first hm hr, if_pos hp, if_neg (not_or.2 ⟨h1, h2⟩)])
  · refine traffic_held h hroom (disposeDown_rising_order hm hr hp hon ho) (List.any_eq_false.2 fun r hmem hall => ?_)
    simp only [Bool.and_eq_true, Bool.not_eq_true', decide_eq_true_eq] at hall
    exact hr r hmem hall.1.1 hall.1.2
  · exact traffic_forwarded h (by rw [disposeDown_third hm hr hp hon ho, if_pos hst])
  · have hd : disposeDown s f = .hold := by
      rw [disposeDown_third hm hr hp hon ho, if_neg (not_or.2 ⟨h1, h2⟩), if_pos hris]
    refine traffic_held h hroom hd (List.any_eq_false.2 fun r hmem hall => ?_)
    simp only [Bool.and_eq_true, Bool.not_eq_true', decide_eq_true_eq] at hall
    exact hr r hmem hall.1.1 hall.1.2
  · exact traffic_refused h hroom
      (by rw [disposeDown_third hm hr hp hon ho, if_neg (not_or.2 ⟨h1, h2⟩), if_neg (by rw [hris]; decide)])
  · rw [exec_upstreamAnswer h hk, if_pos hl]
    rfl
  · rw [exec_upstreamAnswer h hk, if_neg (by simp [hl])]
    rfl

/-! ## The scan -/

theorem selects_iff (e : MatchEntry) (f : Frame) : selects e f = true ↔ e.Selects f := by
  unfold selects MatchEntry.Selects
  simp only [Bool.and_eq_true, Option.all_eq_true, decide_eq_true_eq]
  tauto

/-- The table after the listed entries have been scanned with no hit among them (R128). -/
def afterFailed (f : Frame) (l : List (Fin 24)) (t : Vector MatchEntry 24) : Vector MatchEntry 24 :=
  Vector.ofFn fun j => if j ∈ l ∧ selects t[j] f then { t[j] with run := 0 } else t[j]

theorem afterFailed_get (f : Frame) (l : List (Fin 24)) (t : Vector MatchEntry 24) (j : Fin 24) :
    (afterFailed f l t)[j] = if j ∈ l ∧ selects t[j] f then { t[j] with run := 0 } else t[j] := by
  simp only [afterFailed, Fin.getElem_fin, Vector.getElem_ofFn]

/-- No hit: the entry does not select the message, or its field test fails. -/
def misses (f : Frame) (e : MatchEntry) : Prop := ¬ (selects e f = true ∧ testPasses e f.payload = true)

theorem scanFrom_misses (f : Frame) (before rest : List (Fin 24)) (t : Vector MatchEntry 24) (hn : before.Nodup)
    (h : ∀ j ∈ before, misses f t[j]) : scanFrom f (before ++ rest) t = scanFrom f rest (afterFailed f before t) := by
  induction before generalizing t with
  | nil =>
    have ht : afterFailed f [] t = t := vector_ext_fin fun j => by
      rw [afterFailed_get, if_neg fun hc => List.not_mem_nil hc.1]
    rw [ht]
    rfl
  | cons i l ih =>
    rw [List.nodup_cons] at hn
    have hi : misses f t[i] := h i List.mem_cons_self
    rw [List.cons_append, scanFrom]
    by_cases hs : selects t[i] f = true
    · rw [if_pos hs, if_neg fun hp => hi ⟨hs, hp⟩]
      have hother (j : Fin 24) (hj : j ≠ i) : (t.set i { t[i] with run := 0 })[j] = t[j] := by
        rw [vector_getElem_set, if_neg hj]
      rw [ih _ hn.2 fun j hj => by
        rw [hother j fun hji => hn.1 (hji ▸ hj)]
        exact h j (List.mem_cons_of_mem i hj)]
      refine congrArg _ (vector_ext_fin fun j => ?_)
      rw [afterFailed_get, afterFailed_get]
      by_cases hj : j = i
      · subst hj
        rw [vector_getElem_set, if_pos rfl, if_neg fun hc => hn.1 hc.1, if_pos ⟨List.mem_cons_self, hs⟩]
      · rw [hother j hj]
        simp [hj]
    · rw [if_neg hs, ih _ hn.2 fun j hj => h j (List.mem_cons_of_mem i hj)]
      refine congrArg _ (vector_ext_fin fun j => ?_)
      rw [afterFailed_get, afterFailed_get]
      by_cases hj : j = i
      · subst hj
        rw [if_neg fun hc => hs hc.2, if_neg fun hc => hs hc.2]
      · simp [hj]

theorem mem_allEntries (i : Fin 24) : i ∈ allEntries := by
  revert i
  decide

/-- The entries before an entry are those of lower index. -/
theorem allEntries_split (i : Fin 24) : ∃ before after, allEntries = before ++ i :: after ∧ before.Nodup ∧
    ∀ j, j ∈ before ↔ j < i := by
  obtain ⟨before, after, hab⟩ := List.append_of_mem (mem_allEntries i)
  have hlt : allEntries.Pairwise (· < ·) := by decide
  rw [hab, List.pairwise_append] at hlt
  obtain ⟨hb, ha, hba⟩ := hlt
  refine ⟨before, after, hab, hb.imp fun h => ne_of_lt h, fun j => ⟨fun hj => hba j hj i List.mem_cons_self, fun hj => ?_⟩⟩
  have hmem : j ∈ before ++ i :: after := hab ▸ mem_allEntries j
  obtain hm | hm := List.mem_append.1 hmem
  · exact hm
  · obtain rfl | hm := List.mem_cons.1 hm
    · exact absurd hj (lt_irrefl _)
    · exact absurd ((List.pairwise_cons.1 ha).1 j hm) (lt_asymm hj)

theorem misses_iff (e : MatchEntry) : misses f e ↔ ¬ (e.Selects f ∧ testPasses e f.payload = true) := by
  rw [misses, selects_iff]

theorem scan_hit {i : Fin 24} (h : s.Hits f i) : ∃ before, (∀ j, j ∈ before ↔ j < i) ∧
    scan f s.matcher.table = (afterFailed f before s.matcher.table, some i) := by
  obtain ⟨hsel, hpass, hfirst⟩ := h
  obtain ⟨before, after, hab, hn, hmem⟩ := allEntries_split i
  refine ⟨before, hmem, ?_⟩
  have hget : (afterFailed f before s.matcher.table)[i] = s.matcher.table[i] := by
    rw [afterFailed_get, if_neg fun hc => lt_irrefl i ((hmem i).1 hc.1)]
  rw [scan, hab, scanFrom_misses f before _ _ hn fun j hj => (misses_iff _).2 (hfirst j ((hmem j).1 hj)), scanFrom, hget,
    if_pos ((selects_iff _ _).2 hsel), if_pos hpass]

theorem scan_none (h : ∀ i : Fin 24, ¬ (s.matcher.table[i].Selects f ∧ testPasses s.matcher.table[i] f.payload = true)) :
    scan f s.matcher.table = (afterFailed f allEntries s.matcher.table, none) := by
  have hs := scanFrom_misses f allEntries [] s.matcher.table (by decide) fun j _ => (misses_iff _).2 (h j)
  rw [List.append_nil] at hs
  rw [scan, hs]
  rfl

/-- The table that a hit leaves with a run count. -/
theorem tableAfterHit_set {i : Fin 24} {before : List (Fin 24)} (hmem : ∀ j, j ∈ before ↔ j < i) (run : Nat) :
    s.TableAfterHit f i run ((afterFailed f before s.matcher.table).set i { s.matcher.table[i] with run := run }) := by
  refine ⟨by rw [vector_getElem_set, if_pos rfl], fun j hj hs => ?_, fun j hj hs => ?_, fun j hj => ?_⟩
  · rw [vector_getElem_set, if_neg (ne_of_lt hj), afterFailed_get, if_pos ⟨(hmem j).2 hj, (selects_iff _ _).2 hs⟩]
  · rw [vector_getElem_set, if_neg (ne_of_lt hj), afterFailed_get, if_neg fun hc => hs ((selects_iff _ _).1 hc.2)]
  · rw [vector_getElem_set, if_neg (ne_of_gt hj), afterFailed_get, if_neg fun hc => lt_asymm hj ((hmem j).1 hc.1)]

/-- The qualifier at a hit (R132). -/
theorem qualify_hit {i : Fin 24} {before : List (Fin 24)} (hmem : ∀ j, j ∈ before ↔ j < i) (t : Vector MatchEntry 24) :
    qualify (afterFailed f before t) (some i) =
      if t[i].run + 1 < t[i].qualifier then
        ((afterFailed f before t).set i { t[i] with run := t[i].run + 1 }, none)
      else ((afterFailed f before t).set i { t[i] with run := 0 }, some t[i]) := by
  have hget : (afterFailed f before t)[i] = t[i] := by
    rw [afterFailed_get, if_neg fun hc => lt_irrefl i ((hmem i).1 hc.1)]
  simp only [qualify, hget]
  by_cases hq : t[i].run + 1 < t[i].qualifier
  · rw [if_neg (by omega), if_pos hq]
  · rw [if_pos (by omega), if_neg hq]

/-! ## A message from an agent -/

theorem messageSource_ofNat {src : Source} (h : 10 ≤ src.val) : messageSource (BitVec.ofNat 6 src.val) = some src := by
  revert src
  decide

theorem fireLatch_none (s : State) : fireLatch none s = (s, .start s) := rfl

theorem fireLatch_quiet {e : MatchEntry} (h : e.action = .drop ∨ e.action = .keep) (s : State) :
    fireLatch (some e) s = (s, .start s) := by
  have hw : e.action.wakes = false := by obtain h | h := h <;> rw [h] <;> rfl
  simp only [fireLatch, hw]

theorem fireLatch_wakes {e : MatchEntry} {src : Source} (h : e.action = .wake ∨ e.action = .wakeKeep)
    (he : e.source = BitVec.ofNat 6 src.val) (h10 : 10 ≤ src.val) (s : State) : fireLatch (some e) s = latchEvent src s := by
  have hw : e.action.wakes = true := by obtain h | h := h <;> rw [h] <;> rfl
  simp only [fireLatch, hw, he, messageSource_ofNat h10]

theorem disposition_up (fired : Option MatchEntry) (h : s.dom.linkUp = true) : disposition s fired = .forward :=
  if_pos (.inl h)

theorem gateUp_forward_up (h : s.dom.linkUp = true) : gateUp f .forward s = forwardUp f s := if_pos h

theorem latched_dom (src : Source) (s : State) : (s.latched src).dom = s.dom := by
  unfold State.latched
  split
  · rfl
  · simp only
    split <;> rfl

theorem latched_mon (src : Source) (s : State) : (s.latched src).mon = s.mon := by
  unfold State.latched
  split
  · rfl
  · simp only
    split <;> rfl

section
variable (h : s.UpMessage f) (hk : f.kind = .note ∨ f.kind = .ask ∨ f.kind = .alert)
include h hk

theorem exec_matcher : exec .matcherTakeMessage s = .next (endEvent (takeMessage f s.downTaken)) := by
  have hr : routeDown f = .matcher := by
    unfold routeDown
    rw [if_neg (by simp [h.sourceLow, h.sourceHigh, h.proxy]), if_pos h.dest, if_pos hk]
  show Host.Outcome.next (match s.upTraffic .matcher with
    | some f => endEvent (takeMessage f (popDown s))
    | none => s) = _
  rw [h.upTraffic hr]
  rfl

/-- A message whose scan and qualifier are known, and whose latch event ends in a state with the rails good. -/
theorem exec_matcher_of {t : Vector MatchEntry 24} {hit : Option (Fin 24)} {u : Vector MatchEntry 24} {fired : Option MatchEntry}
    {v r : State} (hs : scan f s.matcher.table = (t, hit)) (hq : qualify t hit = (u, fired))
    (hf : fireLatch fired (s.downTaken.withMatcher ⟨u⟩) = (v, .start (s.downTaken.withMatcher ⟨u⟩)))
    (hg : gateUp f (disposition s fired) v = r) (hr : r.RailsGood) : exec .matcherTakeMessage s = .next r := by
  have ht : takeMessage f s.downTaken = (r, .start (s.downTaken.withMatcher ⟨u⟩)) := by
    have hs' : scan f s.downTaken.matcher.table = (t, hit) := hs
    have hd : disposition s.downTaken fired = disposition s fired := rfl
    simp only [takeMessage, hs', hq, hf, hd, hg]
  rw [exec_matcher h hk, ht, endEvent_start_of_railsGood hr]

end

section
variable (h : s.UpMessage f) (hk : f.kind = .note ∨ f.kind = .ask ∨ f.kind = .alert) (hl : s.dom.linkUp = true)
include h hk hl

/-- With the link UP the message is forwarded. -/
theorem exec_matcher_forward {t : Vector MatchEntry 24} {hit : Option (Fin 24)} {u : Vector MatchEntry 24}
    {fired : Option MatchEntry} {v : State} (hs : scan f s.matcher.table = (t, hit)) (hq : qualify t hit = (u, fired))
    (hf : fireLatch fired (s.downTaken.withMatcher ⟨u⟩) = (v, .start (s.downTaken.withMatcher ⟨u⟩)))
    (hv : v.dom = s.dom) (hr : v.RailsGood) : exec .matcherTakeMessage s = .next (forwardUp f v) := by
  refine exec_matcher_of h hk hs hq hf ?_ (hr.congr rfl rfl)
  rw [disposition_up fired hl]
  exact gateUp_forward_up ((congrArg DomainTable.linkUp hv).trans hl)

end

/-- Settles O35. -/
theorem matcherForwardsAndCountsRuns : Obligations.MatcherForwardsAndCountsRuns := by
  intro s f h hk hl hr
  have hrails (u : Vector MatchEntry 24) : (s.downTaken.withMatcher ⟨u⟩).RailsGood := hr.congr rfl rfl
  have hdom (u : Vector MatchEntry 24) : (s.downTaken.withMatcher ⟨u⟩).dom = s.dom := rfl
  refine ⟨fun i hit hquiet => ?_, fun i src hit hq hact hsrc h10 harm hwin hroom => ?_, fun hnone => ?_⟩
  · obtain ⟨before, hmem, hscan⟩ := scan_hit hit
    have hqual := qualify_hit (f := f) hmem s.matcher.table
    by_cases hlt : s.matcher.table[i].run + 1 < s.matcher.table[i].qualifier
    · rw [if_pos hlt] at hqual ⊢
      have hexec := exec_matcher_forward h hk hl hscan hqual (fireLatch_none _) (hdom _) (hrails _)
      exact ⟨_, tableAfterHit_set hmem _, hexec⟩
    · rw [if_neg hlt] at hqual ⊢
      have hexec := exec_matcher_forward h hk hl hscan hqual (fireLatch_quiet (hquiet.resolve_left hlt) _) (hdom _) (hrails _)
      exact ⟨_, tableAfterHit_set hmem _, hexec⟩
  · obtain ⟨before, hmem, hscan⟩ := scan_hit hit
    have hqual := qualify_hit (f := f) hmem s.matcher.table
    rw [if_neg (by omega)] at hqual
    refine ⟨_, tableAfterHit_set hmem 0, ?_⟩
    rintro t rfl
    have hlatch (u : Vector MatchEntry 24) : latchEvent src (s.downTaken.withMatcher ⟨u⟩) =
        ((s.downTaken.withMatcher ⟨u⟩).latched src, .start (s.downTaken.withMatcher ⟨u⟩)) :=
      latchFrom_latched src _ hwin harm fun _ => upRoom_of_lt hroom rfl
    have hldom (u : Vector MatchEntry 24) : ((s.downTaken.withMatcher ⟨u⟩).latched src).dom = s.dom :=
      latched_dom src (s.downTaken.withMatcher ⟨u⟩)
    have hlrails (u : Vector MatchEntry 24) : ((s.downTaken.withMatcher ⟨u⟩).latched src).RailsGood :=
      hr.congr (congrArg DomainTable.config (hldom u)) (latched_mon src (s.downTaken.withMatcher ⟨u⟩))
    have hexec := exec_matcher_forward h hk hl hscan hqual ((fireLatch_wakes hact hsrc h10 _).trans (hlatch _))
      (hldom _) (hlrails _)
    exact hexec
  · have hexec := exec_matcher_forward h hk hl (scan_none hnone) rfl (fireLatch_none _) (hdom _) (hrails _)
    refine ⟨afterFailed f allEntries s.matcher.table, fun j hs => ?_, fun j hs => ?_, hexec⟩
    · rw [afterFailed_get, if_pos ⟨mem_allEntries j, (selects_iff _ _).2 hs⟩]
    · rw [afterFailed_get, if_neg fun hc => hs ((selects_iff _ _).1 hc.2)]

/-! ## Messages with the link DOWN -/

/-- No entry of a lower index selects the message: the scan changes no run count before the hit. -/
theorem afterFailed_unselected {before : List (Fin 24)} {t : Vector MatchEntry 24}
    (h : ∀ j ∈ before, ¬ t[j].Selects f) : afterFailed f before t = t :=
  vector_ext_fin fun j => by rw [afterFailed_get, if_neg fun hc => h j hc.1 ((selects_iff _ _).1 hc.2)]

section
variable (hl : s.dom.linkUp = false)
include hl

theorem gateUp_down_quiet {fired : Option MatchEntry} {v : State} (hv : v.dom = s.dom)
    (hf : ∀ e, fired = some e → e.action = .drop ∨ e.action = .wake) : gateUp f (disposition s fired) v = discardUp f v := by
  unfold disposition
  split
  · exact if_neg (by rw [hv, hl]; decide)
  · cases fired with
    | none => rfl
    | some e => obtain he | he := hf e rfl <;> simp only [Option.map_some, he] <;> rfl

theorem gateUp_down_keep {e : MatchEntry} {v : State} (hv : v.dom = s.dom) (he : e.action = .keep ∨ e.action = .wakeKeep) :
    gateUp f (disposition s (some e)) v = if s.eng.platform = .working then discardUp f v else keepUp f v := by
  unfold disposition
  by_cases hw : s.eng.platform = .working
  · rw [if_pos (.inr hw), if_pos hw]
    exact if_neg (by rw [hv, hl]; decide)
  · rw [if_neg (not_or.2 ⟨by simp [hl], hw⟩), if_neg hw]
    obtain he | he := he <;> simp only [Option.map_some, he] <;> rfl

end

section
variable {u : State} (hroom : u.down.own.length < 24)
include hroom

theorem discardUp_downTaken : discardUp f u.downTaken = u.upDropped f := by
  unfold discardUp State.upDropped
  split
  · exact queueDown_of_room (s := countDiscarded 1 u.downTaken) hroom
  · rfl

theorem keepUp_downTaken (hl : u.dom.linkUp = false) : keepUp f u.downTaken = u.upKept f false := by
  have hpermit : (u.downTaken.gate.permit && u.downTaken.dom.linkUp) = false := by
    rw [show u.downTaken.dom.linkUp = false from hl, Bool.and_false]
  unfold keepUp State.upKept
  rw [hpermit]
  by_cases hh : u.gate.hold.length < 16
  · rw [if_pos (show u.downTaken.gate.hold.length < 16 from hh), if_pos hh]
    rfl
  · rw [if_neg (show ¬ u.downTaken.gate.hold.length < 16 from hh), if_neg hh]
    split
    · exact queueDown_of_room (s := countOverflow u.downTaken) hroom
    · rfl

end

theorem State.RailsGood.upDropped (h : s.RailsGood) : (s.upDropped f).RailsGood := by
  unfold State.upDropped
  split <;> exact h.congr rfl rfl

theorem State.RailsGood.upKept (h : s.RailsGood) (b : Bool) : (s.upKept f b).RailsGood := by
  unfold State.upKept
  split
  · exact h.congr rfl rfl
  · split <;> exact h.congr rfl rfl

theorem latched_downTaken (src : Source) (hl : s.dom.linkUp = false) : s.downTaken.latched src = (s.latched src).downTaken := by
  unfold State.latched
  by_cases hb : s.wake.latch.getLsbD src.val = true
  · rw [if_pos hb, if_pos (show s.downTaken.wake.latch.getLsbD src.val = true from hb)]
  · rw [if_neg hb, if_neg (show ¬ s.downTaken.wake.latch.getLsbD src.val = true from hb)]
    simp only
    rw [if_neg (by rw [show s.downTaken.dom.linkUp = false from hl]; decide), if_neg (by rw [hl]; decide)]
    rfl

theorem latched_down (src : Source) (s : State) : (s.latched src).down = s.down := by
  unfold State.latched
  split
  · rfl
  · simp only
    split <;> rfl

/-- Settles O36. -/
theorem matcherDisposesWithTheLinkDown : Obligations.MatcherDisposesWithTheLinkDown := by
  intro s f h hk hl hr hroom hwin
  refine ⟨fun hnone => ?_, fun i e counted hit hearlier he hcount => ?_⟩
  · have hscan := scan_none (s := s) (f := f) fun i hc => hnone i hc.1
    rw [afterFailed_unselected fun j _ => hnone j] at hscan
    refine exec_matcher_of h hk hscan rfl (fireLatch_none _) ?_ hr.upDropped
    refine (gateUp_down_quiet hl (v := s.downTaken.withMatcher _) rfl (fun e he => by cases he)).trans ?_
    exact discardUp_downTaken hroom
  · obtain ⟨before, hmem, hscan⟩ := scan_hit hit
    have hqual := qualify_hit (f := f) hmem s.matcher.table
    rw [afterFailed_unselected fun j hj => hearlier j ((hmem j).1 hj)] at hscan hqual
    rw [he] at hqual
    have hcounted := hcount _ rfl
    have hcl : counted.dom.linkUp = false := by rw [hcounted]; exact hl
    have hcr : counted.RailsGood := hr.congr (by rw [hcounted]) (by rw [hcounted])
    have hcroom : counted.down.own.length < 24 := by rw [hcounted]; exact hroom
    have hcdom : counted.downTaken.dom = s.dom := by rw [hcounted]; rfl
    have hctaken (run : Nat) (hrun : (if e.run + 1 < e.qualifier then e.run + 1 else 0) = run) :
        s.downTaken.withMatcher ⟨s.matcher.table.set i { e with run := run }⟩ = counted.downTaken := by
      rw [hcounted, hrun]
      rfl
    refine ⟨fun hquiet => ?_, fun hq hact => ?_, fun src hq hsrc h10 harm => ?_⟩
    · by_cases hlt : e.run + 1 < e.qualifier
      · rw [if_pos hlt] at hqual
        refine exec_matcher_of h hk hscan hqual (fireLatch_none _) ?_ hcr.upDropped
        rw [hctaken _ (if_pos hlt), gateUp_down_quiet hl hcdom (fun e he => by cases he)]
        exact discardUp_downTaken hcroom
      · rw [if_neg hlt] at hqual
        have hdrop : e.action = .drop := hquiet.resolve_left hlt
        refine exec_matcher_of h hk hscan hqual (fireLatch_quiet (.inl hdrop) _) ?_ hcr.upDropped
        rw [hctaken _ (if_neg hlt), gateUp_down_quiet hl hcdom (fun x hx => .inl (by
          obtain rfl := Option.some.inj hx
          exact hdrop))]
        exact discardUp_downTaken hcroom
    · rw [if_neg (by omega)] at hqual
      have hgate : gateUp f (disposition s (some e)) counted.downTaken =
          if s.eng.platform = .working then discardUp f counted.downTaken else keepUp f counted.downTaken :=
        gateUp_down_keep hl hcdom (.inl hact)
      refine ⟨fun hw => ?_, fun hw => ?_⟩
      · refine exec_matcher_of h hk hscan hqual (fireLatch_quiet (.inr hact) _) ?_ hcr.upDropped
        rw [hctaken _ (if_neg (by omega)), hgate, if_pos hw]
        exact discardUp_downTaken hcroom
      · refine exec_matcher_of h hk hscan hqual (fireLatch_quiet (.inr hact) _) ?_ (hcr.upKept false)
        rw [hctaken _ (if_neg (by omega)), hgate, if_neg hw]
        exact keepUp_downTaken hcroom hcl
    · rw [if_neg (by omega)] at hqual
      have hlatch (hact : e.action = .wake ∨ e.action = .wakeKeep) :
          fireLatch (some e) counted.downTaken = ((counted.latched src).downTaken, .start counted.downTaken) := by
        rw [fireLatch_wakes hact hsrc h10, ← latched_downTaken src hcl]
        refine latchFrom_latched src _ ?_ ?_ fun hup => absurd hup (by rw [hcdom, hl]; decide)
        · rw [hcounted]
          exact hwin
        · rw [hcounted]
          exact harm
      have hldom : (counted.latched src).downTaken.dom = s.dom := (latched_dom src counted).trans hcdom
      have hlroom : (counted.latched src).down.own.length < 24 := by rw [latched_down]; exact hcroom
      have hlr : (counted.latched src).RailsGood :=
        hcr.congr (congrArg DomainTable.config (latched_dom src counted)) (latched_mon src counted)
      refine ⟨fun hact => ?_, fun hact hw => ?_⟩
      · refine exec_matcher_of h hk hscan hqual (by rw [hctaken _ (if_neg (by omega))]; exact hlatch (.inl hact)) ?_
          hlr.upDropped
        rw [gateUp_down_quiet hl hldom (fun x hx => .inr (by
          obtain rfl := Option.some.inj hx
          exact hact))]
        exact discardUp_downTaken hlroom
      · refine exec_matcher_of h hk hscan hqual (by rw [hctaken _ (if_neg (by omega))]; exact hlatch (.inr hact)) ?_
          (hlr.upKept false)
        rw [gateUp_down_keep hl hldom (.inr hact), if_neg hw]
        exact keepUp_downTaken hlroom ((congrArg DomainTable.linkUp (latched_dom src counted)).trans hcl)

end Sys2Proof.Machine
end

section
/-! SUPPORT. The end of a member: what its completion or its failure writes, the Rising set after it, and the event where others
run on (R46, R52 to R58). The statement O37 is settled here. -/

namespace Sys2Proof.Machine

variable {s : State} {m : Member} {others : List Member}

/-! ## Events that take no record out of the Hold Queue -/

/-- No record has left: none was held, or no domain has left the Rising set. -/
def Departed.Quiet (left : Departed) : Prop := left.queue = [] ∨ (left.answered = 0#12 ∧ left.lost = 0#12)

theorem quiet_start (s : State) : (Departed.start s).Quiet := .inr ⟨rfl, rfl⟩

theorem reclassify_quiet {left : Departed} (h : left.Quiet) : reclassify left s = s := by
  obtain h | ⟨ha, hl⟩ := h
  · exact reclassify_empty h
  · exact reclassify_none s (by simp [Departed.records, ha, hl])

theorem join_queue (left : Departed) (x : DomainSet) (s : State) : (left.join x s).queue = left.queue := by
  unfold Departed.join
  split <;> rfl

theorem join_quiet {left : Departed} {x : DomainSet} (h : left.Quiet) (hx : left.queue = [] ∨ x = 0#12) :
    (left.join x s).Quiet := by
  obtain hq | rfl := hx
  · exact .inl ((join_queue left x s).trans hq)
  · obtain hq | ⟨ha, hl⟩ := h
    · exact .inl ((join_queue left 0#12 s).trans hq)
    · right
      unfold Departed.join
      split <;> simp [ha, hl]

theorem endEvent_of_quiet {p : State × Departed} (hr : p.1.RailsGood) (hq : p.2.Quiet) : endEvent p = p.1 := by
  rw [endEvent_of_railsGood hr, reclassify_quiet hq]

theorem withHold_self (s : State) : s.withHold s.gate.hold = s := rfl

theorem depart_nothing {x : DomainSet} (left : Departed) (h : s.gate.hold = [] ∨ x = 0#12) : (depart x left s).1 = s := by
  have hf : s.gate.hold.filter (fun r => !s.downRecordOf x r) = s.gate.hold := by
    obtain h | rfl := h
    · rw [h]
      rfl
    · exact List.filter_eq_self.2 fun r _ => by simp
  show s.withHold (s.gate.hold.filter fun r => !s.downRecordOf x r) = s
  rw [hf, withHold_self]

/-! ## The Rising set at a member's end -/

/-- The domain's leaving of the Rising set takes no record out: none is held, or the domain is ON. -/
def State.LeavesQuietly (s : State) (left : Departed) (a : Action) : Prop :=
  left.Quiet ∧ ((left.queue = [] ∧ s.gate.hold = []) ∨ ∀ d, a.endsOn = some d → s.recorded d = .on)

theorem leaveRising_quiet {d : Domain} {left : Departed} (hq : left.Quiet)
    (h : (left.queue = [] ∧ s.gate.hold = []) ∨ s.recorded d = .on) :
    (leaveRising d left s).1 = s.withRising (clearBit s.eng.rising d) ∧ (leaveRising d left s).2.Quiet := by
  unfold leaveRising
  refine ⟨depart_nothing left ?_, join_quiet hq ?_⟩
  · exact h.imp (fun h => h.2) fun h => if_pos h
  · exact h.imp (fun h => h.1) fun h => if_pos h

/-- The Rising set after the end of a step with an action (R46). -/
def State.risingAfter (s : State) (a : Action) : DomainSet :=
  match a.endsOn with
  | some d => if s.onEndingLeft d then s.eng.rising else clearBit s.eng.rising d
  | none => s.eng.rising

theorem withRising_self (s : State) : s.withRising s.eng.rising = s := rfl

theorem endRising_quiet {a : Action} {left : Departed} (h : s.LeavesQuietly left a) :
    (endRising a left s).1 = s.withRising (s.risingAfter a) ∧ (endRising a left s).2.Quiet := by
  obtain ⟨hq, hx⟩ := h
  have hstay : (left.join 0#12 s).Quiet := join_quiet hq (.inr rfl)
  unfold endRising State.risingAfter
  cases ha : a.endsOn with
  | none => exact ⟨(withRising_self s).symm, hstay⟩
  | some d =>
    have hd : (left.queue = [] ∧ s.gate.hold = []) ∨ s.recorded d = .on := hx.imp_right fun h => h d ha
    show (if hasBit s.eng.rising d && !s.onEndingLeft d then leaveRising d left s else (s, left.join 0#12 s)).1 =
        s.withRising (if s.onEndingLeft d then s.eng.rising else clearBit s.eng.rising d) ∧
      (if hasBit s.eng.rising d && !s.onEndingLeft d then leaveRising d left s else (s, left.join 0#12 s)).2.Quiet
    by_cases hl : s.onEndingLeft d = true
    · rw [if_neg (by simp [hl]), if_pos hl]
      exact ⟨(withRising_self s).symm, hstay⟩
    · rw [if_neg hl]
      by_cases hb : hasBit s.eng.rising d = true
      · rw [if_pos (by simp [hl, hb])]
        exact leaveRising_quiet hq hd
      · rw [if_neg (by simp [hb]), clearBit_of_not_mem _ _ (Bool.not_eq_true _ ▸ hb)]
        exact ⟨(withRising_self s).symm, hstay⟩

/-! ## A member that ends -/

/-- The member runs, and these run on when it has ended. -/
structure State.EndsTo (s : State) (m : Member) (others : List Member) : Prop where
  found : s.memberAt m.plan.position = some m
  rest  : (s.eng.running.filter fun x => decide (x.plan.position ≠ m.plan.position)) = others

theorem State.RunsWith.endsTo {before after : List Member} (h : s.RunsWith m before after) : s.EndsTo m (before ++ after) := by
  have hne (x : Member) (hx : x ∈ before ++ after) : decide (x.plan.position ≠ m.plan.position) = true :=
    decide_eq_true (h.unique x hx)
  refine ⟨?_, ?_⟩
  · refine (first_of_split h.running (fun x hx => ?_) (decide_eq_true rfl)).1
    exact decide_eq_false (h.unique x (List.mem_append_left after hx))
  · rw [h.running, List.filter_append, List.filter_cons_of_neg (by simp),
      List.filter_eq_self.2 fun x hx => hne x (List.mem_append_left after hx),
      List.filter_eq_self.2 fun x hx => hne x (List.mem_append_right before hx)]

theorem State.EndsTo.congr {t : State} (h : s.EndsTo m others) (hr : t.eng.running = s.eng.running) : t.EndsTo m others :=
  ⟨by unfold State.memberAt; rw [hr]; exact h.found, by rw [hr]; exact h.rest⟩

theorem State.EndsTo.timed (h : s.EndsTo m others) (ht : m.timer.isSome = true) : s.timedMember m.plan.position = some m := by
  simp [State.timedMember, h.found, ht]

/-- The undo records that the completion of a member pushes (R57). -/
def State.pushedBy (s : State) (m : Member) : List UndoRecord :=
  if s.eng.platform.isEntering then (undoOf m).toList else []

theorem pushUndo_eq (m : Member) (s : State) :
    pushUndo m s = s.withEng { s.eng with undoStack := s.pushedBy m ++ s.eng.undoStack } := by
  unfold pushUndo State.pushedBy
  cases undoOf m with
  | none => cases s.eng.platform.isEntering <;> rfl
  | some r => cases s.eng.platform.isEntering <;> rfl

theorem risingWithout_eq (s : State) (m : Member) (others : List Member) (pushed : List UndoRecord) (orders : List OrderEntry) :
    (s.withEng { s.eng with running := others, orders := orders, undoStack := pushed }).risingAfter m.plan.step.action =
      s.risingWithout others m := by
  unfold State.risingAfter State.risingWithout
  cases m.plan.step.action.endsOn <;> rfl

/-- The end of a member, with the undo records it has pushed. -/
theorem ended_eq {left : Departed} (h : s.EndsTo m others) (pushed : List UndoRecord) (hq : s.LeavesQuietly left m.plan.step.action) :
    (endRising m.plan.step.action left (dropMember m (s.withEng { s.eng with undoStack := pushed ++ s.eng.undoStack }))).1 =
        s.memberEnded others m pushed ∧
      (endRising m.plan.step.action left
        (dropMember m (s.withEng { s.eng with undoStack := pushed ++ s.eng.undoStack }))).2.Quiet := by
  have hdrop : dropMember m (s.withEng { s.eng with undoStack := pushed ++ s.eng.undoStack }) =
      s.withEng { s.eng with running := others, orders := s.eng.orders.filter fun o => decide (o.position ≠ some m.plan.position),
                             undoStack := pushed ++ s.eng.undoStack } := by
    rw [← h.rest]
    rfl
  rw [hdrop]
  obtain ⟨h1, h2⟩ := endRising_quiet (s := s.withEng { s.eng with
    running := others, orders := s.eng.orders.filter fun o => decide (o.position ≠ some m.plan.position),
    undoStack := pushed ++ s.eng.undoStack }) (a := m.plan.step.action) (left := left) hq
  refine ⟨h1.trans ?_, h2⟩
  rw [risingWithout_eq]
  rfl

/-- The state with the completing member's state on completion written (R57). -/
def doneWritten (m : Member) (s : State) : State :=
  match m.plan.step.action.done with
  | some (d, st) => writeDomain d st.toDom s
  | none => s

theorem doneWritten_eng (m : Member) (s : State) : (doneWritten m s).eng = s.eng := by
  unfold doneWritten
  split
  · exact writeDomain_eng _ _ _
  · rfl

theorem doneWritten_rails (m : Member) (h : s.RailsGood) : (doneWritten m s).RailsGood := by
  unfold doneWritten
  split
  · exact h.congr (writeDomain_config _ _ _) (writeDomain_mon _ _ _)
  · exact h

theorem memberEnded_rails (h : s.RailsGood) (others : List Member) (m : Member) (pushed : List UndoRecord) :
    (s.memberEnded others m pushed).RailsGood := h.congr rfl rfl

theorem completeMember_eq {left : Departed} (h : s.EndsTo m others)
    (hq : (doneWritten m s).LeavesQuietly left m.plan.step.action) :
    (completeMember m left s).1 = (doneWritten m s).memberEnded others m (s.pushedBy m) ∧ (completeMember m left s).2.Quiet := by
  have hp : (doneWritten m s).pushedBy m = s.pushedBy m := by
    unfold State.pushedBy
    rw [doneWritten_eng]
  have hc : completeMember m left s =
      endRising m.plan.step.action left (dropMember m (pushUndo m (doneWritten m s))) := rfl
  rw [hc, pushUndo_eq, hp]
  exact ended_eq (h.congr (congrArg Engine.running (doneWritten_eng m s))) _ hq

theorem failMember_eq {d : Domain} {st : DomState} {c : FaultCause} {left : Departed} (h : s.EndsTo m others)
    (hq : (writeCause d c (writeDomain d st s)).LeavesQuietly left m.plan.step.action) :
    (failMember m d st c left s).1 = (writeCause d c (writeDomain d st s)).memberEnded others m [] ∧
      (failMember m d st c left s).2.Quiet :=
  ended_eq (s := writeCause d c (writeDomain d st s)) (h.congr (congrArg Engine.running (writeDomain_eng s d st))) [] hq

/-- With a member of the group still running its Plan waits (R48). -/
theorem groupTest_waiting {p : State × Departed} (h : p.1.eng.running ≠ []) : groupTest p = ⟨p.1, p.2, .waiting⟩ :=
  if_pos (by simpa using h)

section
variable (h : s.EndsTo m others) (hne : others ≠ []) (hr : s.RailsGood)
include h hne hr

/-- A member completes while others run on. -/
theorem endEvent_memberCompleted (hq : (doneWritten m s).LeavesQuietly (.start s) m.plan.step.action) :
    endEvent (memberCompleted m s) = (doneWritten m s).memberEnded others m (s.pushedBy m) := by
  obtain ⟨h1, h2⟩ := completeMember_eq h hq
  have hrun : (completeMember m (.start s) s).1.eng.running ≠ [] := by rw [h1]; exact hne
  have hm : memberCompleted m s = completeMember m (.start s) s := by
    unfold memberCompleted
    rw [groupTest_waiting hrun]
    rfl
  rw [hm, endEvent_of_quiet ?_ h2, h1]
  rw [h1]
  exact memberEnded_rails (doneWritten_rails m hr) _ _ _

/-- A member fails under CONTINUE while others run on. -/
theorem endEvent_memberFailed {d : Domain} {st : DomState} {c : FaultCause} (hpol : m.plan.step.policy = .continue)
    (hq : (writeCause d c (writeDomain d st s)).LeavesQuietly (.start s) m.plan.step.action) :
    endEvent (memberFailed m d st c s) = (writeCause d c (writeDomain d st s)).memberEnded others m [] := by
  obtain ⟨h1, h2⟩ := failMember_eq h hq
  have hrun : (failMember m d st c (.start s) s).1.eng.running ≠ [] := by rw [h1]; exact hne
  have hm : memberFailed m d st c s = failMember m d st c (.start s) s := by
    unfold memberFailed
    simp only
    rw [if_neg, groupTest_waiting hrun]
    · rfl
    · unfold State.takesAbort
      split <;> simp [hpol]
  rw [hm, endEvent_of_quiet ?_ h2, h1]
  rw [h1]
  exact memberEnded_rails (s := writeCause d c (writeDomain d st s))
    (hr.congr (writeDomain_config s d st) (writeDomain_mon s d st)) others m []

end

/-! ## Recorded states of domains other than the controller's -/

theorem leavesQuietly_of_hold {a : Action} {left : Departed} (hq : left.queue = []) (hh : s.gate.hold = []) :
    s.LeavesQuietly left a := ⟨.inl hq, .inl ⟨hq, hh⟩⟩

theorem leavesQuietly_of_on {a : Action} (t : State) (h : ∀ d, a.endsOn = some d → s.recorded d = .on) :
    s.LeavesQuietly (.start t) a := ⟨quiet_start t, .inr h⟩

theorem recordedAs_recorded (s : State) (d : Domain) (st : DomState) (c : Option FaultCause) :
    (s.recordedAs d st c).recorded d = st :=
  (withStatus_recorded s d d { s.dom.status[d] with recorded := st, lastCause := c }).trans (if_pos rfl)

section
variable {d : Domain} (hd : d ≠ s.dom.controller) (hh : s.gate.hold = [])
include hd hh

theorem writeDomain_recordedAs (st : DomState) : writeDomain d st s = s.recordedAs d st s.dom.status[d].lastCause :=
  writeDomain_of_other st hd hh

theorem writeFailed_recordedAs (st : DomState) (c : FaultCause) :
    writeCause d c (writeDomain d st s) = s.recordedAs d st (some c) := by
  rw [writeDomain_of_other st hd hh]
  unfold writeCause
  rw [withStatus_status, if_pos rfl]
  unfold State.withStatus
  simp only [State.withDom, Fin.getElem_fin, Vector.set_set]
  rfl

end

theorem pushedBy_order {d : Domain} {target : OrdState} {rev : Bool} (ha : m.plan.step.action = .order d target rev) :
    s.pushedBy m = if rev = true ∧ s.eng.platform.isEntering = true
      then [⟨m.plan.index, .order d m.priorState, m.plan.step.code⟩] else [] := by
  unfold State.pushedBy undoOf
  rw [ha]
  cases rev <;> cases s.eng.platform.isEntering <;> rfl

theorem pushedBy_line {p : Option (Domain × Option OrdState)} {l : EnLine} {high rev : Bool}
    (ha : m.plan.step.action = .line p l high rev) : s.pushedBy m = if rev = true ∧ s.eng.platform.isEntering = true
      then [⟨m.plan.index, .line (p.map fun x => (x.1, m.priorState)) l m.priorLevel, m.plan.step.code⟩] else [] := by
  unfold State.pushedBy undoOf
  rw [ha]
  cases rev <;> cases s.eng.platform.isEntering <;> rfl

theorem pushedBy_delay {p : Option (Domain × Option OrdState)} (ha : m.plan.step.action = .delay p) : s.pushedBy m = [] := by
  unfold State.pushedBy undoOf
  rw [ha]
  cases s.eng.platform.isEntering <;> rfl

/-! ## ORDER-DONE -/

section
variable {f : Frame} (h : s.DoneWaits f)
include h

theorem exec_orderDone : exec .orderDone s = .next (endEvent (takeOrderDone f s.downTaken)) := by
  have hr : routeDown f = .engine := by
    unfold routeDown
    rw [if_neg (by simp [h.sourceLow, h.sourceHigh, h.proxy]), if_neg (by rw [h.dest]; decide), if_pos h.dest, if_pos h.kind]
  have hi : s.down.input = [] ++ f :: s.down.input.tail := by
    have hh := h.head
    cases hs : s.down.input with
    | nil => simp [hs] at hh
    | cons a l => simp_all
  obtain ⟨hp, hpop⟩ := pastTraffic_split hi h.loaded (fun g hg => absurd hg List.not_mem_nil) (by simp [isTraffic, hr])
  show Host.Outcome.next (match s.pastTraffic with
    | some f => if routeDown f = DownRoute.engine then endEvent (takeOrderDone f (popPastTraffic s)) else s
    | none => s) = _
  rw [hp, hpop]
  exact congrArg Host.Outcome.next (if_pos hr)

end

section
variable {f : Frame} {reached : OrdState} {rest : List Byte} (hp : f.payload = BitVec.ofNat 8 reached.code :: rest)
include hp

theorem takeOrderDone_reached : takeOrderDone f s.downTaken =
    match s.eng.orders.find? fun o => decide (o.agent = f.src ∧ o.tag = f.tag) with
    | some o => orderMatched o reached s.downTaken
    | none => orderUnmatched f.src reached s.downTaken := by
  have hb : OrdState.ofByte (BitVec.ofNat 8 reached.code) = some reached := ordState_ofByte_code reached
  simp only [takeOrderDone, hp, List.head?_cons, Option.bind_some, hb] <;> rfl

theorem takeOrderDone_matched {first last : List OrderEntry} {o : OrderEntry} (ho : s.eng.orders = first ++ o :: last)
    (hf : ∀ x ∈ first, x.agent ≠ f.src ∨ x.tag ≠ f.tag) (hagent : o.agent = f.src) (htag : o.tag = f.tag) :
    takeOrderDone f s.downTaken = orderMatched o reached s.downTaken := by
  rw [takeOrderDone_reached hp, (first_of_split (P := fun o => decide (o.agent = f.src ∧ o.tag = f.tag)) ho (fun x hx => by
    obtain hx | hx := hf x hx <;> simp [hx]) (by simp [hagent, htag])).1]

theorem takeOrderDone_unmatched (hn : ∀ o ∈ s.eng.orders, o.agent ≠ f.src ∨ o.tag ≠ f.tag) :
    takeOrderDone f s.downTaken = orderUnmatched f.src reached s.downTaken := by
  rw [takeOrderDone_reached hp, List.find?_eq_none.2 fun o ho => by
    obtain hx | hx := hn o ho <;> simp [hx]]

end

/-- The entry of the member's own ORDER leaves the table with the member. -/
theorem memberEnded_withOrders (s : State) (l : List OrderEntry) (others : List Member) (m : Member) (pushed : List UndoRecord)
    (h : (l.filter fun o => decide (o.position ≠ some m.plan.position)) =
      s.eng.orders.filter fun o => decide (o.position ≠ some m.plan.position)) :
    (s.withOrders l).memberEnded others m pushed = s.memberEnded others m pushed := by
  unfold State.memberEnded
  rw [← h]
  rfl

theorem memberEnded_removeOrder (s : State) {o : OrderEntry} (others : List Member) (m : Member) (pushed : List UndoRecord)
    (ho : o.position = some m.plan.position) : (removeOrder o s).memberEnded others m pushed = s.memberEnded others m pushed := by
  refine memberEnded_withOrders s _ others m pushed ?_
  rw [List.filter_filter]
  refine List.filter_congr fun x _ => ?_
  by_cases hx : x = o
  · subst hx
    simp [ho]
  · simp [hx]

theorem releaseDomain_hold (d : Domain) (s : State) : (releaseDomain d s).gate.hold = s.released d := by
  show s.gate.hold.map _ = s.gate.hold.map _
  refine List.map_congr_left fun r _ => ?_
  cases r.up <;> simp

/-- With no record held for it or another, or the domain ON, a member's ORDER that is matched ends it. -/
theorem orderMatched_member {o : OrderEntry} {reached : OrdState} (h : s.EndsTo m others) (ho : o.position = some m.plan.position) :
    orderMatched o reached s = if reached = o.target then memberCompleted m (writeDomain o.domain reached.toDom (removeOrder o s))
      else memberFailed m o.domain reached.toDom .stateMismatch (removeOrder o s) := by
  have hfound : (removeOrder o s).memberAt m.plan.position = some m := h.found
  simp only [orderMatched, ho, hfound]

/-- The link goes UP, and UP records become releasable if the permit is set (R19, R146). -/
theorem linkUp_eq (s : State) : linkUp s = { s with
    dom := { s.dom with linkUp := true },
    gate := { s.gate with hold := s.gate.hold.map fun r =>
      if s.gate.permit = true ∧ r.up = true then { r with releasable := true } else r } } := by
  unfold linkUp markUp
  by_cases hp : s.gate.permit = true
  · have hm : (s.gate.hold.map fun r => if s.gate.permit = true ∧ r.up = true then { r with releasable := true } else r) =
        s.gate.hold.map fun r => if r.up then { r with releasable := true } else r := by simp only [hp, true_and]
    rw [if_pos (by rw [show (s.withLink true).gate.permit = true from hp]; rfl), hm]
    rfl
  · have hm : (s.gate.hold.map fun r => if s.gate.permit = true ∧ r.up = true then { r with releasable := true } else r) =
        s.gate.hold := by simp [hp]
    rw [if_neg (by simp [show ¬ (s.withLink true).gate.permit = true from hp]), hm]
    rfl

/-- The marks of a link's return and of a domain's release, in either order. -/
theorem released_map (s : State) (d : Domain) (l : List HoldRecord) (p : Bool) :
    (l.map fun r => if p = true ∧ r.up = true then { r with releasable := true } else r).map (fun r : HoldRecord =>
        if r.up = false ∧ s.mapped r.frame.dest = some d then { r with releasable := true } else r) =
      (l.map fun r => if r.up = false ∧ s.mapped r.frame.dest = some d then { r with releasable := true } else r).map
        fun r => if p = true ∧ r.up = true then { r with releasable := true } else r := by
  rw [List.map_map, List.map_map]
  refine List.map_congr_left fun r _ => ?_
  by_cases h1 : p = true ∧ r.up = true
  · have h2 : ¬ (r.up = false ∧ s.mapped r.frame.dest = some d) := fun h => by simp [h.1] at h1
    simp [h1]
  · by_cases h2 : r.up = false ∧ s.mapped r.frame.dest = some d
    · simp [h2]
    · simp [h1, h2]

/-- Settles O37. -/
theorem orderDoneEndsItsMember : Obligations.OrderDoneEndsItsMember := by
  intro s f m before after d target reached rev first last rest h hp hr hrun ha hpol horders hfirst
  let o : OrderEntry := ⟨d, f.src, f.tag, target, some m.plan.position⟩
  let u := removeOrder o s.downTaken
  have hends : s.downTaken.EndsTo m (before ++ after) := hrun.endsTo.congr rfl
  have huends : u.EndsTo m (before ++ after) := hrun.endsTo.congr rfl
  have hexec : exec .orderDone s = .next (endEvent (if reached = target then memberCompleted m (writeDomain d reached.toDom u)
      else memberFailed m d reached.toDom .stateMismatch u)) := by
    rw [exec_orderDone h, takeOrderDone_matched hp horders hfirst rfl rfl, orderMatched_member hends rfl]
  have hur : u.RailsGood := hr.congr rfl rfl
  have hne : before ++ after ≠ [] := hrun.others
  have hdone (t : State) : doneWritten m t = t := by
    unfold doneWritten
    rw [ha]
    rfl
  have hendsOn (e : Domain) (he : m.plan.step.action.endsOn = some e) : e = d := by
    rw [ha] at he
    simp only [Action.endsOn] at he
    split at he
    · exact (Option.some.inj he).symm
    · exact absurd he (by simp)
  have hcomplete (w : State) (hw : writeDomain d reached.toDom u = w) (hwe : w.eng = u.eng) (hwr : w.RailsGood)
      (hwq : w.LeavesQuietly (.start w) m.plan.step.action) (heq : reached = target) :
      exec .orderDone s = .next (w.memberEnded (before ++ after) m (if rev = true ∧ s.eng.platform.isEntering = true
        then [⟨m.plan.index, .order d m.priorState, m.plan.step.code⟩] else [])) := by
    rw [hexec, if_pos heq, hw, endEvent_memberCompleted (huends.congr (congrArg Engine.running hwe)) hne hwr
      (by rw [hdone]; exact hwq), hdone, pushedBy_order ha, hwe]
    rfl
  refine ⟨fun hd hh heq => ?_, fun hd hh hmis => ?_, fun hd hon ht => ?_, fun t hd hon ht hl htt => ?_⟩
  · rw [hcomplete (u.recordedAs d reached.toDom s.dom.status[d].lastCause) (writeDomain_recordedAs (s := u) hd hh _) rfl
      (hur.congr rfl rfl) (leavesQuietly_of_hold hh hh) heq]
    exact congrArg Host.Outcome.next (memberEnded_removeOrder (s.downTaken.recordedAs d reached.toDom _) (o := o) _ m _ rfl)
  · have hw : writeCause d .stateMismatch (writeDomain d reached.toDom u) = u.recordedAs d reached.toDom (some .stateMismatch) :=
      writeFailed_recordedAs (s := u) hd hh _ _
    rw [hexec, if_neg hmis, endEvent_memberFailed (s := u) (hends.congr rfl) hne hur hpol
      (by rw [hw]; exact leavesQuietly_of_hold hh hh), hw]
    exact congrArg Host.Outcome.next (memberEnded_removeOrder (s.downTaken.recordedAs d reached.toDom _) (o := o) _ m _ rfl)
  · subst hon
    let v := u.recordedAs d .on s.dom.status[d].lastCause
    have hw : writeDomain d .on u = releaseDomain d v := by
      rw [writeDomain_eq, if_neg (fun hc : u.dom.controller = d => hd hc.symm)]
      rfl
    rw [hcomplete (releaseDomain d v) hw rfl (hur.congr rfl rfl)
      (leavesQuietly_of_on _ fun e he => by rw [hendsOn e he]; exact recordedAs_recorded u d _ _) ht.symm]
    refine congrArg Host.Outcome.next ?_
    have hrel := memberEnded_removeOrder (releaseDomain d (s.downTaken.recordedAs d .on s.dom.status[d].lastCause)) (o := o)
      (before ++ after) m (if rev = true ∧ s.eng.platform.isEntering = true
        then [⟨m.plan.index, .order d m.priorState, m.plan.step.code⟩] else []) rfl
    refine hrel.trans ?_
    rw [show s.released d = (s.downTaken.recordedAs d .on s.dom.status[d].lastCause).released d from rfl, ← releaseDomain_hold]
    rfl
  · subst hon htt
    let v := u.recordedAs d .on s.dom.status[d].lastCause
    have hheld : v.linkHeld = false := by
      show s.linkHeld = false
      simp [State.linkHeld, h.loaded]
    have hvon : v.recorded v.dom.controller = .on := by
      show v.recorded s.dom.controller = .on
      rw [← hd]
      exact recordedAs_recorded u d _ _
    have hlink : recomputeLink v = linkUp v := by
      unfold recomputeLink
      rw [if_neg (by rw [hheld]; decide), if_pos hvon]
      exact if_neg (by rw [show v.dom.linkUp = false from hl]; decide)
    have hw : writeDomain d .on u = releaseDomain d (linkUp v) := by
      rw [writeDomain_eq, if_pos (show u.dom.controller = d from hd.symm)]
      exact congrArg (releaseDomain d) hlink
    have hv := linkUp_eq v
    have hcfg : (linkUp v).dom.config = v.dom.config := by rw [hv]
    have hst : (linkUp v).dom.status = v.dom.status := by rw [hv]
    have hwe : (releaseDomain d (linkUp v)).eng = u.eng := markUp_eng _
    have hwr : (releaseDomain d (linkUp v)).RailsGood := hur.congr hcfg (markUp_mon _)
    have hwon : (releaseDomain d (linkUp v)).recorded d = .on := by
      show (linkUp v).dom.status[d].recorded = .on
      rw [hst]
      exact recordedAs_recorded u d _ _
    rw [hcomplete (releaseDomain d (linkUp v)) hw hwe hwr (leavesQuietly_of_on _ fun e he => by rw [hendsOn e he]; exact hwon)
      ht.symm]
    refine congrArg Host.Outcome.next ?_
    let w := s.downTaken.recordedAs d .on s.dom.status[d].lastCause
    have hremove : releaseDomain d (linkUp v) = removeOrder o (releaseDomain d (linkUp w)) := by
      rw [hv, linkUp_eq w]
      rfl
    have hhold : (releaseDomain d (linkUp w)).gate.hold = (s.released d).map fun r =>
        if s.gate.permit = true ∧ r.up = true then { r with releasable := true } else r := by
      rw [releaseDomain_hold, linkUp_eq w]
      exact released_map s d s.gate.hold s.gate.permit
    have hstate : releaseDomain d (linkUp w) = { w with
        dom := { w.dom with linkUp := true },
        gate := { s.gate with hold := (s.released d).map fun r =>
          if s.gate.permit = true ∧ r.up = true then { r with releasable := true } else r } } := by
      rw [← hhold, linkUp_eq w]
      rfl
    rw [hremove, memberEnded_removeOrder _ _ _ _ rfl, hstate]
    rfl

end Sys2Proof.Machine
end

section
/-! SUPPORT. ORDER-DONEs that match no entry, and the step timers (R52 to R58). The statements O38 and O39 are settled here. -/

namespace Sys2Proof.Machine

variable {s : State} {m : Member} {others : List Member}

/-! ## ORDER-DONEs that match no entry -/

section
variable {f : Frame} (h : s.DoneWaits f)
include h

/-- An ORDER-DONE that changes no power-good line and takes no record out. -/
theorem exec_orderDone_quiet {t : State} {left : Departed} (ht : takeOrderDone f s.downTaken = (t, left)) (htr : t.RailsGood)
    (hq : left.Quiet) : exec .orderDone s = .next t := by
  rw [exec_orderDone h, ht, endEvent_of_quiet htr hq]

theorem orderDone_discarded (hr : s.RailsGood) (hp : f.payload.head?.bind OrdState.ofByte = none) :
    exec .orderDone s = .next s.downTaken.discardedOne := by
  refine exec_orderDone_quiet h (left := .start s.downTaken) ?_ (hr.congr rfl rfl) (quiet_start _)
  rw [takeOrderDone, hp]
  rfl

end

/-- A late completion of a domain other than the controller's, with no record held (R54). -/
theorem lateDone_eq {d : Domain} (reached : OrdState) (hd : d ≠ s.dom.controller) (hh : s.gate.hold = []) :
    (lateDone d reached s).1 = (countLate (s.recordedAs d reached.toDom s.dom.status[d].lastCause)).withRising
        (if reached = .on then s.eng.rising else clearBit s.eng.rising d) ∧ (lateDone d reached s).2.Quiet := by
  have hw : countLate (writeDomain d reached.toDom s) = countLate (s.recordedAs d reached.toDom s.dom.status[d].lastCause) :=
    congrArg countLate (writeDomain_recordedAs hd hh reached.toDom)
  unfold lateDone
  simp only [hw]
  by_cases hon : reached = .on
  · rw [if_neg (by simp [hon]), if_pos hon]
    exact ⟨rfl, quiet_start _⟩
  · rw [if_neg hon]
    by_cases hb : hasBit s.eng.rising d = true
    · rw [if_pos (by rw [show hasBit (countLate (s.recordedAs d reached.toDom _)).eng.rising d = true from hb]; simp [hon])]
      exact leaveRising_quiet (quiet_start _) (.inl ⟨hh, hh⟩)
    · rw [if_neg (by simp [show ¬ hasBit (countLate (s.recordedAs d reached.toDom _)).eng.rising d = true from hb]),
        clearBit_of_not_mem _ _ (Bool.not_eq_true _ ▸ hb)]
      exact ⟨rfl, quiet_start _⟩

theorem orderUnmatched_late {agent : Addr} {reached : OrdState} {d : Domain} (hs : s.servedDomain agent = some d)
    (hu : s.recorded d = .unknown) : orderUnmatched agent reached s = lateDone d reached s := by
  simp only [orderUnmatched, hs, if_pos hu]

theorem orderUnmatched_stray {agent : Addr} {reached : OrdState}
    (h : ∀ d, s.servedDomain agent = some d → s.recorded d ≠ .unknown) :
    orderUnmatched agent reached s = (countStray s, .start s) := by
  unfold orderUnmatched
  cases hs : s.servedDomain agent with
  | none => rfl
  | some d => exact if_neg (h d hs)

/-- Settles O38. -/
theorem unmatchedOrderDoneIsLateOrStray : Obligations.UnmatchedOrderDoneIsLateOrStray := by
  refine fun s f h hr => ⟨fun b rest hp => orderDone_discarded h hr ?_, fun reached rest hp hn =>
    ⟨fun d hs hu hd hh => ?_, fun hs => ?_⟩⟩
  · obtain hp | ⟨hp, hb⟩ := hp
    · rw [hp]
      rfl
    · have hnone : OrdState.ofByte b = none := by
        rw [← Option.not_isSome_iff_eq_none, ordState_ofByte_isSome]
        omega
      rw [hp]
      exact hnone
  · obtain ⟨h1, h2⟩ := lateDone_eq (s := s.downTaken) reached hd hh
    have ht := (takeOrderDone_unmatched hp hn).trans (orderUnmatched_late (s := s.downTaken) hs hu)
    refine (exec_orderDone_quiet h (t := (lateDone d reached s.downTaken).1) ht ?_ h2).trans
      (congrArg Host.Outcome.next h1)
    rw [h1]
    exact hr.congr rfl rfl
  · exact exec_orderDone_quiet h ((takeOrderDone_unmatched hp hn).trans (orderUnmatched_stray (s := s.downTaken) hs))
      (hr.congr rfl rfl) (quiet_start _)

/-! ## Step timers -/

section
variable (h : s.EndsTo m others) (ht : m.timer.isSome = true)
include h ht

theorem exec_orderTimeout {d : Domain} {target : OrdState} {rev : Bool} (ha : m.plan.step.action = .order d target rev) :
    exec (.orderTimeout m.plan.position) s = .next (endEvent (memberFailed m d .unknown .stepTimeout s)) := by
  show execOrderTimeout m.plan.position s = _
  simp only [execOrderTimeout, h.timed ht, ha]

theorem exec_awaitGoodTimeout {d : Domain} {asserted : Bool} {done : Option OrdState}
    (ha : m.plan.step.action = .awaitGood d asserted done) :
    exec (.awaitGoodTimeout m.plan.position) s = .next (endEvent (memberFailed m d .unknown .stepTimeout s)) := by
  show execAwaitGoodTimeout m.plan.position s = _
  simp only [execAwaitGoodTimeout, h.timed ht, ha]

theorem exec_lineSettleExpiry {p : Option (Domain × Option OrdState)} {l : EnLine} {high rev : Bool}
    (ha : m.plan.step.action = .line p l high rev) :
    exec (.lineSettleExpiry m.plan.position) s = .next (endEvent (memberCompleted m s)) := by
  show execLineSettleExpiry m.plan.position s = _
  simp only [execLineSettleExpiry, h.timed ht, ha]

theorem exec_delayExpiry {p : Option (Domain × Option OrdState)} (ha : m.plan.step.action = .delay p) :
    exec (.delayExpiry m.plan.position) s = .next (endEvent (memberCompleted m s)) := by
  show execDelayExpiry m.plan.position s = _
  simp only [execDelayExpiry, h.timed ht, ha]

end

theorem doneWritten_none (h : m.plan.step.action.done = none) : doneWritten m s = s := by
  unfold doneWritten
  rw [h]

theorem doneWritten_some {d : Domain} {st : OrdState} (h : m.plan.step.action.done = some (d, st)) :
    doneWritten m s = writeDomain d st.toDom s := by
  unfold doneWritten
  rw [h]

/-- The link goes DOWN with the controller domain (R19, R20). -/
theorem writeDomain_controller_off {st : DomState} (hst : st ≠ .on) (hload : s.ldr.loading = none) (hl : s.dom.linkUp = true) :
    writeDomain s.dom.controller st s =
      linkDown (s.withStatus s.dom.controller { s.dom.status[s.dom.controller] with recorded := st }) := by
  have hrec : (s.withStatus s.dom.controller { s.dom.status[s.dom.controller] with recorded := st }).recorded s.dom.controller = st :=
    (withStatus_recorded s s.dom.controller s.dom.controller _).trans (if_pos rfl)
  rw [writeDomain_eq, if_pos rfl, recomputeLink_of_not_on]
  · show (if st = .on then _ else _) = _
    rw [if_neg hst]
    exact if_pos hl
  · show State.recorded (s.withStatus _ _) s.dom.controller ≠ .on
    rw [hrec]
    exact hst
  · simp [State.linkHeld, hload]

theorem toDom_ne_on {st : OrdState} (h : st ≠ .on) : st.toDom ≠ .on := by cases st <;> simp_all [OrdState.toDom]

/-- Settles O39. -/
theorem stepTimersEndTheirMembers : Obligations.StepTimersEndTheirMembers := by
  intro s m before after hrun hr hh ht
  have hends := hrun.endsTo
  have hne := hrun.others
  have hfail (d : Domain) (hpol : m.plan.step.policy = .continue) (hd : d ≠ s.dom.controller) :
      endEvent (memberFailed m d .unknown .stepTimeout s) =
        (s.recordedAs d .unknown (some .stepTimeout)).memberEnded (before ++ after) m [] := by
    have hw := writeFailed_recordedAs hd hh .unknown .stepTimeout
    rw [endEvent_memberFailed hends hne hr hpol (by rw [hw]; exact leavesQuietly_of_hold hh hh), hw]
  have hcomplete (w : State) (hw : doneWritten m s = w) (hwh : w.gate.hold = []) :
      endEvent (memberCompleted m s) = w.memberEnded (before ++ after) m (s.pushedBy m) := by
    rw [endEvent_memberCompleted hends hne hr (by rw [hw]; exact leavesQuietly_of_hold hh hwh), hw]
  have hstate (d : Domain) (st : OrdState) (hdone : m.plan.step.action.done = some (d, st)) (hd : d ≠ s.dom.controller) :
      doneWritten m s = s.recordedAs d st.toDom s.dom.status[d].lastCause :=
    (doneWritten_some hdone).trans (writeDomain_recordedAs hd hh _)
  refine ⟨fun d target rev ha hpol hd => ?_, fun d asserted done ha hpol hd => ?_, fun l high rev ha => ?_,
    fun d st l high rev ha hd => ?_, fun st l high status ha hst hload hl hstatus => ?_, fun ha => ?_, fun d st ha hd => ?_⟩
  · rw [exec_orderTimeout hends ht ha, hfail d hpol hd]
  · rw [exec_awaitGoodTimeout hends ht ha, hfail d hpol hd]
  · rw [exec_lineSettleExpiry hends ht ha, hcomplete s (doneWritten_none (by rw [ha]; rfl)) hh, pushedBy_line ha]
    rfl
  · rw [exec_lineSettleExpiry hends ht ha, hcomplete _ (hstate d st (by rw [ha]; rfl) hd) hh, pushedBy_line ha]
    rfl
  · have hw := (doneWritten_some (s := s) (m := m) (by rw [ha]; rfl)).trans
      (writeDomain_controller_off (toDom_ne_on hst) hload hl)
    rw [exec_lineSettleExpiry hends ht ha, hcomplete _ hw hh, pushedBy_line ha, hstatus]
    have hlen : s.up.forwarded.toList.length = if s.up.forwarded.isSome = true then 1 else 0 := by
      cases s.up.forwarded <;> rfl
    rw [← hlen]
    rfl
  · rw [exec_delayExpiry hends ht ha, hcomplete s (doneWritten_none (by rw [ha]; rfl)) hh, pushedBy_delay ha]
  · rw [exec_delayExpiry hends ht ha, hcomplete _ (hstate d st (by rw [ha]; rfl) hd) hh, pushedBy_delay ha]

end Sys2Proof.Machine
end

section
/-! SUPPORT. Unwinding: its beginning, the undo of a record, its end (R72 to R76). The statements O43 and O40 are settled here. -/

namespace Sys2Proof.Machine

variable {s : State} {left : Departed}

/-! ## Rising sets and reports with no record held -/

theorem unknownSet_getLsbD (s : State) (e : Domain) : s.unknownSet.getLsbD e = decide (s.recorded e = .unknown) :=
  setOf_domains _ e

theorem makeReport_of_down (r : Report) (h : s.dom.linkUp = false) : makeReport r s = recordReport r s :=
  queueUp_of_down (s := recordReport r s) _ h

section
variable (hh : s.gate.hold = []) (hq : left.queue = [])
include hh hq

theorem replaceRising_empty (new : DomainSet) :
    (replaceRising new left s).1 = s.withRising new ∧ (replaceRising new left s).2.queue = [] :=
  ⟨depart_nothing (s := s.withRising new) left (.inl hh), (join_queue _ _ _).trans hq⟩

theorem undoLeavesRising_empty (a : UndoAction) (stack : List UndoRecord) :
    ∃ rising, (undoLeavesRising a stack left s).1 = s.withRising rising ∧ (undoLeavesRising a stack left s).2.queue = [] := by
  have hstay : (s, left.join 0#12 s).1 = s.withRising s.eng.rising ∧ (s, left.join 0#12 s).2.queue = [] :=
    ⟨(withRising_self s).symm, (join_queue _ _ _).trans hq⟩
  unfold undoLeavesRising
  cases a.domain with
  | none => exact ⟨_, hstay⟩
  | some d =>
    by_cases hc : (hasBit s.eng.rising d && !stack.any fun r => decide (r.action.restoresOn = some d)) = true
    · simp only [if_pos hc]
      exact ⟨_, depart_nothing (s := s.withRising _) left (.inl hh), (join_queue _ _ _).trans hq⟩
    · simp only [if_neg hc]
      exact ⟨_, hstay⟩

end

/-! ## The end of unwinding -/

/-- The Engine is back in WORKING: nothing runs of the unwinding, and the Rising set is empty (R76). -/
def State.unwound (s : State) : State :=
  s.withEng { s.eng with platform := .working, undoStack := [], undo := none, unwind := none, rising := 0#12 }

/-- The REPORT of an unwinding that ends in a state (R76). -/
def State.unwindReport (s : State) (info : UnwindInfo) : Report :=
  ⟨s.eng.platform.sequence, .aborted, info.cause, info.failing, info.source, s.unknownSet⟩

theorem unwindEnd_eq {info : UnwindInfo} (hh : s.gate.hold = []) (hq : left.queue = []) (hu : s.eng.unwind = some info) :
    (unwindEnd left s).1 = makeReport (s.unwindReport info) s.unwound ∧ (unwindEnd left s).2.queue = [] := by
  obtain ⟨h1, h2⟩ := replaceRising_empty (s := s.withEng { s.eng with
    platform := .working, undoStack := [], undo := none, unwind := none }) (left := left) hh hq 0#12
  unfold unwindEnd
  simp only [hu, Option.getD_some]
  exact ⟨by rw [h1]; rfl, h2⟩

/-! ## An undo that has ended -/

/-- An undo that has ended, with the table empty: its domain may have left the Rising set, and the next record is popped. -/
theorem undoEnded_eq {u : UndoRun} (ho : ∀ o ∈ s.eng.orders, o.position = none) (hh : s.gate.hold = []) :
    ∃ rising left, left.queue = [] ∧ undoEnded u s =
      unwindFrom s.eng.undoStack left (s.withEng { s.eng with undo := none, orders := [], rising := rising }) := by
  have hf : (s.eng.orders.filter fun o => decide (o.position ≠ none)) = [] :=
    List.filter_eq_nil_iff.2 fun o h => by simp [ho o h]
  have hd : undoEnded u s = (fun p => unwindFrom s.eng.undoStack p.2 p.1) (undoLeavesRising u.record.action s.eng.undoStack
      (.start s) (s.withEng { s.eng with undo := none, orders := [] })) := by
    rw [← hf]
    rfl
  obtain ⟨rising, h1, h2⟩ := undoLeavesRising_empty (s := s.withEng { s.eng with undo := none, orders := [] })
    (left := .start s) hh hh u.record.action s.eng.undoStack
  refine ⟨rising, _, h2, hd.trans ?_⟩
  show unwindFrom _ _ _ = _
  rw [h1]
  rfl

/-- An ORDER record is popped: its ORDER goes out with the next tag (R73). -/
theorem unwindFrom_order {r : UndoRecord} {e : Domain} {prior : DomState} {a : Addr} (rest : List UndoRecord)
    (hr : r.action = .order e prior) (ha : (s.config e).agent = some a) (hroom : s.down.own.length < 24) :
    unwindFrom (r :: rest) left s = ((s.withEng { s.eng with
        undo := some ⟨r, startTimer (ticks r.code)⟩, undoStack := rest,
        orders := s.eng.orders ++ [⟨e, a, s.eng.tag, undoTarget prior, none⟩], tag := s.eng.tag + 1#4 }).withDown
      { s.down with own := s.down.own ++ [orderFrame a s.eng.tag (undoTarget prior)] }, left) := by
  have ha' : ((s.withUndo none rest).config e).agent = some a := ha
  rw [unwindFrom]
  simp only [hr, ha']
  exact congrArg (·, left) (queueDown_of_room hroom)

/-! ## The events that end an undo -/

/-- The state differs from the other in the Domain Table and the input FIFO of the Downstream Port alone. -/
structure State.Marks (s t : State) : Prop where
  eng   : t.eng = s.eng
  hold  : t.gate.hold = s.gate.hold
  link  : t.dom.linkUp = s.dom.linkUp
  wake  : t.wake = s.wake
  lines : t.lines = s.lines
  up    : t.up = s.up
  own   : t.down.own = s.down.own
  config : t.dom.config = s.dom.config
  rails : s.RailsGood → t.RailsGood

theorem State.Marks.of_eq {t : State} (h : t = s) : s.Marks t := by
  subst h
  exact ⟨rfl, rfl, rfl, rfl, rfl, rfl, rfl, rfl, id⟩

theorem marks_recordedAs (s : State) (d : Domain) (st : DomState) (c : Option FaultCause) : s.Marks (s.recordedAs d st c) :=
  ⟨rfl, rfl, rfl, rfl, rfl, rfl, rfl, rfl, fun h => h.congr rfl rfl⟩

theorem marks_downTaken (s : State) (d : Domain) (st : DomState) (c : Option FaultCause) :
    s.Marks (s.downTaken.recordedAs d st c) := ⟨rfl, rfl, rfl, rfl, rfl, rfl, rfl, rfl, fun h => h.congr rfl rfl⟩

theorem withOrders_self (s : State) : s.withOrders s.eng.orders = s := rfl

theorem recordedAs_withOrders (d : Domain) (st : DomState) (c : Option FaultCause) :
    (s.recordedAs d st c).withOrders s.eng.orders = s.recordedAs d st c := rfl

section
variable {u : UndoRun} (hu : s.eng.undo = some u)
include hu

theorem exec_undoOrderTimeout {d : Domain} {prior : DomState} (hh : s.gate.hold = []) (ht : u.timer.isSome = true)
    (ha : u.record.action = .order d prior) (hd : d ≠ s.dom.controller) :
    exec .undoOrderTimeout s = .next (endEvent (undoEnded u (s.recordedAs d .unknown (some .stepTimeout)))) := by
  show execUndoOrderTimeout s = _
  simp only [execUndoOrderTimeout, State.timedUndo, hu, Option.filter_some, ht, if_true, ha, undoFailed,
    writeFailed_recordedAs hd hh]

theorem exec_undoLineSettleExpiry {p : Option (Domain × DomState)} {l : EnLine} {high : Bool} (ht : u.timer.isSome = true)
    (ha : u.record.action = .line p l high) :
    exec .undoLineSettleExpiry s = .next (endEvent (undoEnded u (undoLineDone (.line p l high) s))) := by
  show execUndoLineSettleExpiry s = _
  simp only [execUndoLineSettleExpiry, State.timedUndo, hu, Option.filter_some, ht, if_true, ha]

/-- The undo's own ORDER-DONE (R74). -/
theorem exec_undoOrderDone {f : Frame} {d : Domain} {target reached : OrdState} {rest : List Byte} (hh : s.gate.hold = [])
    (h : s.DoneWaits f) (hp : f.payload = BitVec.ofNat 8 reached.code :: rest) (hd : d ≠ s.dom.controller)
    (ho : s.eng.orders = [⟨d, f.src, f.tag, target, none⟩]) :
    exec .orderDone s = .next (endEvent (undoEnded u ((if reached = target
      then s.downTaken.recordedAs d reached.toDom s.dom.status[d].lastCause
      else s.downTaken.recordedAs d .unknown (some .stateMismatch)).withOrders []))) := by
  have hm := takeOrderDone_matched (first := []) (last := []) hp ho (fun x hx => absurd hx List.not_mem_nil) rfl rfl
  have hempty : removeOrder ⟨d, f.src, f.tag, target, none⟩ s.downTaken = s.downTaken.withOrders [] := by
    unfold removeOrder
    rw [show s.downTaken.eng.orders = [⟨d, f.src, f.tag, target, none⟩] from ho, List.filter_cons_of_neg (by simp)]
    rfl
  have hundo : (s.downTaken.withOrders []).eng.undo = some u := hu
  rw [exec_orderDone h, hm]
  simp only [orderMatched, hempty, hundo]
  by_cases ht : reached = target
  · rw [if_pos ht, if_pos ht, writeDomain_recordedAs (s := s.downTaken.withOrders []) hd hh]
    rfl
  · rw [if_neg ht, if_neg ht]
    unfold undoFailed
    rw [writeFailed_recordedAs (s := s.downTaken.withOrders []) hd hh]
    rfl

end

/-- Settles O43. -/
theorem undoEventsGoOnOrEndTheUnwinding : Obligations.UndoEventsGoOnOrEndTheUnwinding := by
  intro s u t info hp hu hi hr hh hl hrun ho c marked hcase
  have hev : s.Marks marked ∧ ∃ orders, (∀ o ∈ orders, o.position = none) ∧
      exec c s = .next (endEvent (undoEnded u (marked.withOrders orders))) := by
    obtain ⟨d, prior, ht, ha, hd, rfl, rfl⟩ | ⟨d, prior, l, high, ht, ha, hd, rfl, rfl⟩ | ⟨l, high, ht, ha, rfl, hmk⟩ |
      ⟨f, d, prior, target, reached, rest, hw, hpay, ha, hd, hord, rfl, rfl⟩ := hcase
    · refine ⟨marks_recordedAs _ _ _ _, s.eng.orders, ho, ?_⟩
      rw [recordedAs_withOrders]
      exact exec_undoOrderTimeout hu hh ht ha hd
    · refine ⟨marks_recordedAs _ _ _ _, s.eng.orders, ho, ?_⟩
      rw [recordedAs_withOrders, exec_undoLineSettleExpiry hu ht ha, undoLineDone,
        writeDomain_recordedAs hd hh]
    · refine ⟨.of_eq hmk, s.eng.orders, ho, ?_⟩
      rw [hmk, withOrders_self, exec_undoLineSettleExpiry hu ht ha, undoLineDone]
    · refine ⟨?_, [], fun _ h => absurd h List.not_mem_nil, exec_undoOrderDone hu hh hw hpay hd hord⟩
      split <;> exact marks_downTaken _ _ _ _
  obtain ⟨hm, orders, hnone, hexec⟩ := hev
  have hhold : marked.gate.hold = [] := hm.hold.trans hh
  have hlink : marked.dom.linkUp = false := hm.link.trans hl
  obtain ⟨rising, left, hq, hend⟩ := undoEnded_eq (s := marked.withOrders orders) (u := u) hnone hhold
  have hstack : marked.eng.undoStack = s.eng.undoStack := congrArg Engine.undoStack hm.eng
  have htag : marked.eng.tag = s.eng.tag := congrArg Engine.tag hm.eng
  have hreport : marked.eng.lastReport = s.eng.lastReport := congrArg Engine.lastReport hm.eng
  rw [show (marked.withOrders orders).eng.undoStack = s.eng.undoStack from hstack] at hend
  let w := (marked.withOrders orders).withEng { (marked.withOrders orders).eng with undo := none, orders := [], rising := rising }
  have hrails : marked.RailsGood := hm.rails hr
  refine ⟨fun hs => ?_, fun r rest e prior a hs hact hagent hroom => ?_⟩
  · have hw : w.eng.unwind = some info := (congrArg Engine.unwind hm.eng).trans hi
    have hplat : w.eng.platform = .unwinding t := (congrArg Engine.platform hm.eng).trans hp
    obtain ⟨h1, h2⟩ := unwindEnd_eq (s := w) hhold hq hw
    have hp1 : (undoEnded u (marked.withOrders orders)).1 = recordReport (w.unwindReport info) w.unwound := by
      rw [hend, hs, ← makeReport_of_down (s := w.unwound) _ hlink, ← h1]
      rfl
    have hp2 : (undoEnded u (marked.withOrders orders)).2.queue = [] := by
      rw [hend, hs]
      exact h2
    have hfin : exec c s = .next (recordReport (w.unwindReport info) w.unwound) := by
      rw [hexec, endEvent_of_quiet (by rw [hp1]; exact hrails.congr rfl rfl) (.inl hp2), hp1]
    refine ⟨_, w.unknownSet, hfin, rfl, rfl, rfl, rfl, rfl, unknownSet_getLsbD w, ?_, hm.lines, hm.wake, hm.up, rfl⟩
    show some (w.unwindReport info) = _
    unfold State.unwindReport
    rw [hplat]
    rfl
  · have hag : (w.config e).agent = some a := by
      show (marked.dom.config[e]).agent = some a
      rw [hm.config]
      exact hagent
    have hwn := unwindFrom_order (s := w) (left := left) rest hact hag (by
      show marked.down.own.length < 24
      rw [hm.own]
      exact hroom)
    rw [← hs, ← hend] at hwn
    have htag : w.eng.tag = s.eng.tag := htag
    have hfin := hexec.trans (congrArg Host.Outcome.next (endEvent_of_quiet (p := undoEnded u (marked.withOrders orders))
      (by rw [hwn]; exact hrails.congr rfl rfl) (by rw [hwn]; exact .inl hq)))
    rw [hwn] at hfin
    refine ⟨_, undoTarget prior, hfin, ?_, (congrArg Engine.platform hm.eng).trans hp, rfl, rfl, ?_, ?_, ?_, rfl, hm.lines,
      hm.wake, hreport⟩
    · cases prior <;> rfl
    · show [] ++ [_] = [_]
      rw [htag]
      rfl
    · exact congrArg (· + 1#4) htag
    · show { marked.down with own := marked.down.own ++ [orderFrame a w.eng.tag (undoTarget prior)] } = _
      rw [hm.own, htag]
      rfl

/-! ## The beginning of unwinding -/

/-- The Engine unwinds an entry: nothing is planned, the Rising set is the one of the Undo Stack, and nothing is armed (R72). -/
def State.unwindingFrom (s : State) (t : Sleep) (info : UnwindInfo) : State :=
  emptyArmed (s.withEng { s.eng with
    platform := .unwinding t, plan := none, abortPending := none, unwind := some info, rising := undoRisingOf s.eng.undoStack })

theorem beginUnwinding_eq (t : Sleep) (info : UnwindInfo) (hh : s.gate.hold = []) (hq : left.queue = []) :
    ∃ left', left'.queue = [] ∧
      beginUnwinding t info left s = unwindFrom s.eng.undoStack left' (s.unwindingFrom t info) := by
  obtain ⟨h1, h2⟩ := replaceRising_empty (s := emptyArmed (s.withEng { s.eng with
    platform := .unwinding t, plan := none, abortPending := none, unwind := some info })) (left := left) hh hq
    (undoRisingOf s.eng.undoStack)
  refine ⟨_, h2, ?_⟩
  show unwindFrom s.eng.undoStack _ _ = _
  rw [show s.unwindingFrom t info = _ from h1.symm]
  rfl

/-- With an empty Undo Stack unwinding ends where it begins (R76). -/
theorem beginUnwinding_nil (t : Sleep) (info : UnwindInfo) (hh : s.gate.hold = []) (hq : left.queue = [])
    (hs : s.eng.undoStack = []) :
    (beginUnwinding t info left s).1 =
        makeReport ⟨some t.code, .aborted, info.cause, info.failing, info.source, s.unknownSet⟩ (s.unwindingFrom t info).unwound ∧
      (beginUnwinding t info left s).2.queue = [] := by
  obtain ⟨left', hq', h⟩ := beginUnwinding_eq t info hh hq
  rw [h, hs]
  exact unwindEnd_eq (s := s.unwindingFrom t info) hh hq' rfl

/-- A LINE record with a settle time is popped: its line takes the prior level and its timer runs (R75). -/
theorem unwindFrom_line {r : UndoRecord} {p : Option (Domain × DomState)} {l : EnLine} {high : Bool} (rest : List UndoRecord)
    (hr : r.action = .line p l high) (ht : ticks r.code ≠ 0) :
    unwindFrom (r :: rest) left s = ((driveLine l high s).withUndo (some ⟨r, some (ticks r.code)⟩) rest, left) := by
  have htimer : startTimer (ticks r.code) = some (ticks r.code) := if_neg ht
  rw [unwindFrom]
  simp only [hr, htimer, reduceCtorEq, if_false]
  rfl

/-- The last member fails under ABORT in ENTERING: its group is abandoned, and unwinding begins (R58 to R60). -/
theorem memberFailed_abort {m : Member} {t : Sleep} {d : Domain} {st : DomState} {c : FaultCause} (h : s.EndsTo m [])
    (hp : s.eng.platform = .entering t) (hpol : m.plan.step.policy = .abort) (hh : s.gate.hold = [])
    (hw : writeCause d c (writeDomain d st s) = s.recordedAs d st (some c)) :
    ∃ left, left.queue = [] ∧ memberFailed m d st c s = beginUnwinding t
      ⟨c.inReport, some m.plan.index, s.eng.abortPending⟩ left ((s.recordedAs d st (some c)).memberEnded [] m []) := by
  have hq : (failMember m d st c (.start s) s).2.queue = [] := by
    show (endRising _ _ _).2.queue = []
    unfold endRising
    split
    · exact (join_queue _ _ _).trans hh
    · split
      · exact (join_queue _ _ _).trans hh
      · exact (join_queue _ _ _).trans hh
  obtain ⟨h1, -⟩ := failMember_eq (d := d) (st := st) (c := c) (left := .start s) h
    (by rw [hw]; exact leavesQuietly_of_hold hh hh)
  rw [hw] at h1
  refine ⟨_, hq, ?_⟩
  have hab : (failMember m d st c (.start s) s).1.takesAbort m.plan = true := by
    rw [h1]
    unfold State.takesAbort
    rw [show ((s.recordedAs d st (some c)).memberEnded [] m []).eng.platform = .entering t from hp]
    exact decide_eq_true hpol
  have habandon : abandonGroup (failMember m d st c (.start s) s).2 (failMember m d st c (.start s) s).1 =
      failMember m d st c (.start s) s := by
    unfold abandonGroup
    rw [h1]
    exact Prod.ext h1.symm rfl
  unfold memberFailed
  simp only [hab, if_true, habandon]
  rw [h1]
  unfold settle
  simp only [show ((s.recordedAs d st (some c)).memberEnded [] m []).eng.platform = .entering t from hp]
  rfl

/-- Settles O40. -/
theorem abortUnderEnteringUnwinds : Obligations.AbortUnderEnteringUnwinds := by
  intro s m t d target rev hp hrun ht ha hpol hord hr hh hd hl
  have hends : s.EndsTo m [] := by
    refine ⟨?_, ?_⟩ <;> simp [State.memberAt, hrun]
  have horders : (s.eng.orders.filter fun o => decide (o.position ≠ some m.plan.position)) = [] := by
    obtain h | ⟨o, h, ho⟩ := hord
    · rw [h]
      rfl
    · simp [h, ho]
  let w := (s.recordedAs d .unknown (some .stepTimeout)).memberEnded [] m []
  obtain ⟨left, hq, hf⟩ := memberFailed_abort (c := .stepTimeout) hends hp hpol hh (writeFailed_recordedAs hd hh _ _)
  have hexec : exec (.orderTimeout m.plan.position) s =
      .next (endEvent (beginUnwinding t ⟨.stepTimeout, some m.plan.index, s.eng.abortPending⟩ left w)) :=
    (exec_orderTimeout hends ht ha).trans (congrArg (fun p => Host.Outcome.next (endEvent p)) hf)
  refine ⟨fun hs => ?_, fun r rest p l high hs hact hticks => ?_⟩
  · obtain ⟨h1, h2⟩ := beginUnwinding_nil (s := w) t ⟨.stepTimeout, some m.plan.index, s.eng.abortPending⟩ hh hq hs
    replace h1 := h1.trans (makeReport_of_down (s := (w.unwindingFrom t _).unwound) _ hl)
    rw [endEvent_of_quiet (by rw [h1]; exact hr.congr rfl rfl) (.inl h2), h1] at hexec
    exact ⟨_, hexec, rfl, rfl, rfl, horders, rfl, rfl, rfl, rfl, rfl, rfl, rfl, rfl, rfl, w.unknownSet, unknownSet_getLsbD w, rfl⟩
  · obtain ⟨left', hq', h⟩ := beginUnwinding_eq (s := w) t ⟨.stepTimeout, some m.plan.index, s.eng.abortPending⟩ hh hq
    rw [show w.eng.undoStack = r :: rest from hs, unwindFrom_line rest hact hticks] at h
    have hfin := hexec.trans (congrArg Host.Outcome.next (endEvent_of_quiet (p := beginUnwinding t _ left w)
      (by rw [h]; exact hr.congr rfl rfl) (by rw [h]; exact .inl hq')))
    rw [h] at hfin
    refine ⟨_, hfin, rfl, rfl, rfl, horders, rfl, rfl, rfl, fun e => ?_, fun k => ?_, rfl, rfl, rfl⟩
    · show (undoRisingOf s.eng.undoStack).getLsbD e = _
      rw [hs]
      exact setOf_domains _ e
    · exact putBit_getLsbD _ _ _ _

end Sys2Proof.Machine
end

section
/-! SUPPORT. The beginning of FORCING, the direct safe-level load, and the start of FORCED-OFF (R78 to R82). -/

namespace Sys2Proof.Machine

variable {s t : State} {left : Departed} {cause : ForcingCause}

/-! ## What the passes over held records leave alone -/

theorem queueUp_gate (s : State) (f : Frame) : (queueUp f s).gate = s.gate := by unfold queueUp; (repeat' split) <;> rfl
theorem queueUp_down (s : State) (f : Frame) : (queueUp f s).down = s.down := by unfold queueUp; (repeat' split) <;> rfl

theorem refuseDown_gate (s : State) (f : Frame) : (refuseDown f s).gate = s.gate := by
  unfold refuseDown
  split
  · exact queueUp_gate s _
  · rfl

theorem refuseDown_down (s : State) (f : Frame) : (refuseDown f s).down = s.down := by
  unfold refuseDown
  split
  · exact queueUp_down s _
  · rfl

theorem refuseDown_dom (s : State) (f : Frame) : (refuseDown f s).dom = s.dom := by
  unfold refuseDown
  split
  · exact queueUp_dom _ s
  · rfl

theorem dropAllDown_gate (left : Departed) (s : State) :
    (dropAllDown left s).gate = { s.gate with hold := s.gate.hold.filter fun r => r.up } :=
  passAt_field (fun t => t.gate) refuseDown_gate (fun _ _ => rfl) queueUp_gate (fun _ _ => rfl) _ _ _ _

theorem dropAllDown_down (left : Departed) (s : State) : (dropAllDown left s).down = s.down :=
  dropAllDown_field (fun t => t.down) refuseDown_down (fun _ _ => rfl) queueUp_down (fun _ _ => rfl) (fun _ _ => rfl) left s

theorem dropAllDown_dom (left : Departed) (s : State) : (dropAllDown left s).dom = s.dom :=
  dropAllDown_field (fun t => t.dom) refuseDown_dom (fun _ _ => rfl) (fun _ _ => queueUp_dom _ _) (fun _ _ => rfl)
    (fun _ _ => rfl) left s

/-- With the link DOWN a record that leaves is counted (R148). -/
theorem dropRecord_down (lost : HoldRecord → Bool) (r : HoldRecord) (h : s.dom.linkUp = false) :
    dropRecord lost s r = countDiscarded 1 s := by
  unfold dropRecord refuseDown
  rw [if_neg (show ¬ (r.frame.kind = .ask ∧ s.dom.linkUp = true) by simp [h]), ite_self]

theorem dropRecords_up_of_down (lost : HoldRecord → Bool) (l : List HoldRecord) (h : s.dom.linkUp = false) :
    (dropRecords lost l s).up = s.up := by
  induction l generalizing s with
  | nil => rfl
  | cons r l ih =>
    show (dropRecords lost l (dropRecord lost s r)).up = s.up
    rw [dropRecord_down lost r h]
    exact ih (s := countDiscarded 1 s) h

theorem dropAllDown_up_of_down (h : s.dom.linkUp = false) : (dropAllDown left s).up = s.up := by
  have hd : dropAllDown left s = dropRecords (fun _ => false) (left.queue.filter fun r => !r.up)
      (s.withHold (s.gate.hold.filter fun r => r.up)) := passAt_down (s := s.withHold _) _ _ _ h
  rw [hd]
  exact dropRecords_up_of_down (s := s.withHold _) _ _ h

/-! ## The beginning of FORCING -/

/-- The state in which FORCED-OFF starts, after FORCING has begun with no ORDER in flight (R78, R79, R149). -/
structure ForcingBegun (s t : State) (cause : ForcingCause) : Prop where
  eng : t.eng = { s.eng with
    platform := .forcing, plan := none, running := [], orders := [], rising := 0#12, abortPending := none,
    forcingCause := some cause, undoStack := [], undo := none, unwind := none }
  dom : t.dom = s.dom
  wake : t.wake = { s.wake with arm := false, armed := 0#16 }
  qual : t.qual = { s.qual with sleepCounting := s.qual.sleepCounting && !s.eng.platform.isRest }
  gate : t.gate = ⟨s.gate.hold.filter fun r => r.up, false⟩
  mon : t.mon = s.mon
  lines : t.lines = s.lines
  down : t.down = s.down
  ldr : t.ldr = s.ldr
  serving : t.mgmt.serving = s.mgmt.serving
  up : s.dom.linkUp = false → t.up = s.up

/-- The sleep-duration counter stops where FORCING leaves a rest state (R123). -/
theorem stopIfRest_eq (s : State) :
    stopIfRest s = s.withQual { s.qual with sleepCounting := s.qual.sleepCounting && !s.eng.platform.isRest } := by
  unfold stopIfRest
  cases s.eng.platform.isRest with
  | true => simp [stopSleepCount]
  | false => simp only [Bool.false_eq_true, if_false, Bool.not_false, Bool.and_true]; rfl

theorem beginForcing_eq (ho : s.orderedDomains = []) :
    ∃ t, ForcingBegun s t cause ∧ beginForcing cause left s = startForcedOff t := by
  let s1 := (s.withQual { s.qual with sleepCounting := s.qual.sleepCounting && !s.eng.platform.isRest }).withEng { s.eng with
    platform := .forcing, plan := none, running := [], orders := [], rising := 0#12, abortPending := none,
    forcingCause := some cause, undoStack := [], undo := none, unwind := none }
  have hcancel : cancelRunning (stopIfRest (s.withEng { s.eng with forcingCause := some cause })) =
      clearWork (stopIfRest (s.withEng { s.eng with forcingCause := some cause })) := by
    unfold cancelRunning
    have hod : (stopIfRest (s.withEng { s.eng with forcingCause := some cause })).orderedDomains = [] := by
      rw [stopIfRest_eq]
      exact ho
    rw [hod]
    rfl
  have hb : beginForcing cause left s = startForcedOff (disarm ((dropAllDown left s1).withPermit false)) := by
    unfold beginForcing
    simp only
    rw [hcancel, stopIfRest_eq]
    rfl
  have hgate : (dropAllDown left s1).gate.hold = s.gate.hold.filter fun r => r.up :=
    congrArg Gate.hold (dropAllDown_gate left s1)
  have hwake : (dropAllDown left s1).wake = s.wake := dropAllDown_wake s1 left
  refine ⟨disarm ((dropAllDown left s1).withPermit false), ⟨dropAllDown_eng s1 left, dropAllDown_dom left s1, ?_, dropAllDown_qual s1 left, ?_, dropAllDown_mon s1 left,
    dropAllDown_lines s1 left, dropAllDown_down left s1, dropAllDown_ldr s1 left, dropAllDown_serving s1 left,
    fun h => dropAllDown_up_of_down (s := s1) h⟩, hb⟩
  · show { (dropAllDown left s1).wake with arm := false, armed := 0#16 } = _
    rw [hwake]
  · show ({ (dropAllDown left s1).gate with permit := false } : Gate) = _
    rw [← hgate]

/-! ## The direct safe-level load -/

/-- The state that FORCING leaves at once, with FORCED-OFF empty (R81, R82). -/
structure ForcedOff (s u : State) (cause : ForcingCause) : Prop where
  eng : u.eng = { s.eng with
    platform := .rest .softoff, plan := none, running := [], orders := [], rising := 0#12, abortPending := none,
    forcingCause := none, undoStack := [], undo := none, unwind := none,
    lastReport := some ⟨cause.sequence, .forced, cause.cause, cause.failing, none, 0#12⟩ }
  status : s.AllOffAfter u
  link : u.dom.linkUp = false
  wake : u.wake = { s.wake with arm := true, armed := s.armedFor .softoff }
  qual : u.qual = { s.qual with sleepCount := 0, sleepCounting := true }
  gate : u.gate = ⟨s.gate.hold.filter fun r => r.up, false⟩
  lines : u.lines = { s.lines with levels := s.lines.safe }
  own : u.up.own = if s.dom.linkUp then [] else s.up.own
  ldr : u.ldr = s.ldr
  serving : u.mgmt.serving = s.mgmt.serving

/-- A domain recorded OFF is not monitored (R152). -/
theorem railFaulty_of_off {d : Domain} (h : s.recorded d = .off) : s.railFaulty d = false := by
  simp [State.railFaulty, State.monitored, h, DomainConfig.monitors]

theorem unknownSet_of_off (h : ∀ d, s.recorded d = .off) : s.unknownSet = 0#12 :=
  set_ext fun e => by rw [unknownSet_getLsbD, h e]; simp

/-- The REPORT of a forced shutdown is recorded with the link DOWN, and the forcing cause is absent again (R81, step 4). -/
def State.forcedDone (s : State) (cause : ForcingCause) : State := s.withEng { s.eng with
  lastReport := some ⟨cause.sequence, .forced, cause.cause, cause.failing, none, s.unknownSet⟩, forcingCause := none }

theorem reportForced_of_down (hl : s.dom.linkUp = false) (hc : s.eng.forcingCause = some cause) :
    reportForced (reachSoftoff s) = (reachSoftoff s).forcedDone cause := by
  unfold reportForced forcedReport
  rw [makeReport_of_down (s := reachSoftoff s) _ hl, show (reachSoftoff s).eng.forcingCause = some cause from hc]
  rfl

theorem directSafeLoad_eq (hb : ForcingBegun s t cause) (hl : s.linkHeld = false) : ForcedOff s (directSafeLoad t) cause := by
  have hheld : (driveSafe t).linkHeld = false := by
    show t.linkHeld = false
    unfold State.linkHeld
    rw [hb.ldr]
    exact hl
  have ha := offAfter_allDomainsOff (driveSafe t) hheld
  obtain ⟨v, hv⟩ : ∃ v, v = allDomainsOff (driveSafe t) := ⟨_, rfl⟩
  rw [← hv] at ha
  have hveng : v.eng = t.eng := ha.eng
  have hlink : v.dom.linkUp = false := by
    rw [ha.link]
    simp [mem_allDomains]
  have hstatus : s.AllOffAfter v := fun d => by
    rw [ha.status d, if_pos (mem_allDomains d)]
    show { t.dom.status[d] with recorded := DomState.off } = _
    rw [hb.dom]
  have hoff (d : Domain) : v.recorded d = .off := congrArg DomainStatus.recorded (hstatus d)
  have hcause : v.eng.forcingCause = some cause := by rw [hveng, hb.eng]
  have hwake : v.wake = t.wake := ha.wake
  have hqual : v.qual = t.qual := ha.qual
  have hload : directSafeLoad t = (reachSoftoff v).forcedDone cause := by
    rw [← reportForced_of_down hlink hcause, hv]
    rfl
  rw [hload]
  refine ⟨?_, hstatus, hlink, ?_, ?_, ha.gate.trans hb.gate, ?_, ?_, ha.ldr.trans hb.ldr, ha.serving.trans hb.serving⟩
  · have heng : ((reachSoftoff v).forcedDone cause).eng = { v.eng with
        platform := .rest .softoff, plan := none, forcingCause := none,
        lastReport := some ⟨cause.sequence, .forced, cause.cause, cause.failing, none, v.unknownSet⟩ } := rfl
    rw [heng, hveng, hb.eng, unknownSet_of_off hoff]
  · show ({ v.wake with arm := true, armed := diff (diff v.wake.enable v.wake.maskSoftoff) v.wake.suppressed } : WakeUnit) = _
    rw [hwake, hb.wake]
    rfl
  · show ({ v.qual with sleepCount := 0, sleepCounting := true } : Qualifiers) = _
    rw [hqual, hb.qual]
  · show v.lines = _
    rw [ha.lines]
    show (driveSafe t).lines = _
    unfold driveSafe
    rw [hb.lines]
    rfl
  · show v.up.own = _
    rw [ha.own]
    show (if t.dom.linkUp && decide (t.dom.controller ∈ allDomains) then [] else t.up.own) = _
    rw [hb.dom]
    cases h : s.dom.linkUp with
    | true => simp [mem_allDomains]
    | false => simp [hb.up h]

theorem ForcedOff.railFaulty {u : State} (h : ForcedOff s u cause) (d : Domain) : u.railFaulty d = false :=
  railFaulty_of_off (congrArg DomainStatus.recorded (h.status d))

/-- The end of an event that finds no domain faulty and has taken no record out of the Hold Queue. -/
theorem endEvent_start_of_unfaulty {u : State} (t : State) (h : ∀ d, u.railFaulty d = false) : endEvent (u, .start t) = u := by
  unfold endEvent
  rw [monitorFrom_none (p := (u, .start t)) h]
  exact reclassify_start t u

theorem ForcedOff.endEvent {u : State} (h : ForcedOff s u cause) (t : State) : endEvent (u, .start t) = u :=
  endEvent_start_of_unfaulty t h.railFaulty

theorem startForcedOff_safe (h : (t.dirEntry 6).count = 0) : startForcedOff t = (directSafeLoad t, .start t) := by
  unfold startForcedOff
  rw [checkSequence_of_count_zero h]

/-- FORCING with FORCED-OFF empty and no ORDER in flight. -/
theorem beginForcing_safe (hd : (s.dirEntry 6).count = 0) (ho : s.orderedDomains = []) (hl : s.linkHeld = false) :
    ∃ u t, beginForcing cause left s = (u, .start t) ∧ ForcedOff s u cause := by
  obtain ⟨t, hb, heq⟩ := beginForcing_eq (left := left) (cause := cause) ho
  have hdt : (t.dirEntry 6).count = 0 := by
    show (if h : 6 < 7 then t.eng.directory[6] else DirEntry.empty).count = 0
    rw [hb.eng]
    exact hd
  exact ⟨directSafeLoad t, t, by rw [heq, startForcedOff_safe hdt], directSafeLoad_eq hb hl⟩

theorem endEvent_beginForcing_safe (hd : (s.dirEntry 6).count = 0) (ho : s.orderedDomains = []) (hl : s.linkHeld = false) :
    ∃ u, endEvent (beginForcing cause left s) = u ∧ ForcedOff s u cause := by
  obtain ⟨u, t, heq, hu⟩ := beginForcing_safe (left := left) (cause := cause) hd ho hl
  exact ⟨u, by rw [heq, hu.endEvent t], hu⟩

/-! ## FORCED-OFF -/

theorem checkSequence_congr (hd : t.eng.directory = s.eng.directory) (hs : t.eng.store = s.eng.store)
    (hc : t.dom.config = s.dom.config) (k : Nat) : checkSequence t k = checkSequence s k := by
  have he : t.dirEntry k = s.dirEntry k := by
    unfold State.dirEntry
    rw [hd]
  have hr (e : DirEntry) : t.rangeOf e = s.rangeOf e := by
    unfold State.rangeOf State.stepAt
    rw [hs]
  have ha : t.orderAgent = s.orderAgent := by
    funext a
    unfold State.orderAgent State.config
    rw [hc]
  unfold checkSequence
  simp only [he, hr, structureFault_congr ha]

/-- FORCED-OFF starts with an ORDER in a group of its own (R80). -/
theorem startForcedOff_order {steps rest : List PlanStep} {q : PlanStep} {d : Domain} {target : OrdState} {rev : Bool} {a : Addr}
    (hc : checkSequence t 6 = .ok steps) (hsteps : (steps.filter fun y => y.step.guard.holds 0#16 none) = q :: rest)
    (hact : q.step.action = .order d target rev) (hj : q.step.join = false) (ha : (t.config d).agent = some a)
    (hown : t.down.own.length < 24) :
    startForcedOff t = ((t.withEng { t.eng with plan := some ⟨q :: rest, 0, (t.dirEntry 6).commit⟩ }).orderStarted q d target a,
      .start t) := by
  have hrun := runSteps_order (s := t.withEng { t.eng with plan := some ⟨q :: rest, 0, (t.dirEntry 6).commit⟩ }) rest (.start t)
    hact hj ha hown
  unfold startForcedOff planOf
  simp only [hc, hsteps]
  exact congrArg settleForcing hrun

end Sys2Proof.Machine
end

section
/-! SUPPORT. The end of a sequence with its last member: an entry, a wake (R48, R62 to R65). The statements O41 and O42 are settled
here. -/

namespace Sys2Proof.Machine

variable {s t : State} {m : Member}

/-! ## The last member -/

theorem State.RunsLast.endsTo (h : s.RunsLast m) : s.EndsTo m [] := by
  refine ⟨?_, ?_⟩ <;> simp [State.memberAt, h.running]

section
variable (h : s.RunsLast m) (ha : m.plan.step.action = .delay none) (ho : s.eng.orders = [])
include h ha ho

/-- The last member completes, a DELAY that writes no state: nothing but it ends. -/
theorem completeMember_last : completeMember m (.start s) s = (s.withRunning [], .start s) := by
  have hd : dropMember m s = s.withRunning [] := by
    unfold dropMember
    rw [h.running, ho, List.filter_cons_of_neg (by simp)]
    show s.withEng { s.eng with running := [], orders := [] } = _
    rw [← ho]
    rfl
  have hp : pushUndo m s = s := by
    unfold pushUndo undoOf
    rw [ha]
  unfold completeMember endRising
  rw [ha]
  simp only [Action.done, Action.endsOn, Option.bind_none, hp, hd, Departed.start_join]

/-- What the end of the last member of a sequence leads to (R48). -/
theorem memberCompleted_last : memberCompleted m s =
    settle ⟨s.withRunning [], .start s, if s.abortsAtGroupEnd then .abortAtGroupEnd else .completed⟩ := by
  have hu : (s.withRunning []).unstarted = [] := h.last
  unfold memberCompleted groupTest
  rw [completeMember_last h ha ho]
  by_cases hab : s.abortsAtGroupEnd = true
  · rw [if_pos hab]
    rw [if_neg (by simp [State.withRunning])]
    exact congrArg settle (if_pos hab)
  · rw [if_neg hab]
    rw [if_neg (by simp [State.withRunning])]
    refine (congrArg settle (if_neg hab)).trans ?_
    simp only [hu]
    rfl

theorem exec_delayExpiry_last (ht : m.timer.isSome = true) : exec (.delayExpiry m.plan.position) s =
    .next (endEvent (settle ⟨s.withRunning [], .start s, if s.abortsAtGroupEnd then .abortAtGroupEnd else .completed⟩)) := by
  rw [exec_delayExpiry h.endsTo ht ha, memberCompleted_last h ha ho]

end

/-! ## The end of a wake -/

theorem resumeCheck_iff (s : State) : s.resumeCheck = true ↔ ∀ d, (s.config d).required = true → s.recorded d = .on := by
  unfold State.resumeCheck
  rw [List.all_eq_true]
  refine ⟨fun h d hd => ?_, fun h d _ => ?_⟩
  · have := h d (mem_allDomains d)
    simpa [hd] using this
  · by_cases hd : (s.config d).required = true
    · simp [h d hd]
    · simp [hd]

theorem replaceRising_zero (left : Departed) (h : s.eng.rising = 0#12) : replaceRising 0#12 left s = (s, left.join 0#12 s) := by
  have hl : s.leaving 0#12 = 0#12 := by
    unfold State.leaving State.notOn
    exact set_ext fun e => by rw [setOf_domains]; simp [h, hasBit, diff]
  unfold replaceRising
  rw [hl, depart_zero]
  rw [← h]
  rfl

/-- The completion of a wake sets the permit where an UP record is held, and makes every UP record releasable (R146). -/
theorem permitAtWake_eq (hl : s.dom.linkUp = true) : permitAtWake s = s.withGate
    ⟨s.gate.hold.map fun r => if r.up then { r with releasable := true } else r, s.gate.hold.any fun r => r.up⟩ := by
  unfold permitAtWake markUp
  by_cases h : (s.gate.hold.any fun r => r.up) = true
  · rw [if_pos (by simpa [State.withPermit, hl] using h)]
    rfl
  · refine (if_neg fun hc => h (Bool.and_eq_true_iff.1 hc).1).trans ?_
    have hm : (s.gate.hold.map fun r => if r.up then { r with releasable := true } else r) = s.gate.hold := by
      refine (List.map_congr_left fun r hr => ?_).trans (List.map_id _)
      have hr' : ¬ r.up = true := fun hx => h (List.any_eq_true.2 ⟨r, hr, hx⟩)
      simp [hr']
    rw [hm]
    rfl

/-- Settles O42. -/
theorem lastMemberEndsTheWake : Obligations.LastMemberEndsTheWake := by
  intro s m x c hp hrun ht ha ho hr hrising hl hload hown hundo hc
  have hab : s.abortsAtGroupEnd = false := by simp [State.abortsAtGroupEnd, hp, Platform.isEntering]
  have hexec := exec_delayExpiry_last hrun ha ho ht
  rw [hab] at hexec
  have hsettle : settle ⟨s.withRunning [], .start s, .completed⟩ = wakeEnd x (.start s) (s.withRunning []) := by
    unfold settle
    simp only [show (s.withRunning []).eng.platform = .waking x from hp]
  simp only [Bool.false_eq_true, if_false] at hexec
  rw [hsettle] at hexec
  refine ⟨fun hreq => ?_, fun d hd hnot hcount => ?_⟩
  · let report : Report := ⟨some (3 + x.code), .completed, .noCause, none, none, s.unknownSet⟩
    let w := s.withEng { s.eng with platform := .working, plan := none, running := [], lastReport := some report }
    have hsend : sendResume w = w.upQueued (resumeNotice c s.wake.generation s.railFaultSet) := by
      unfold sendResume
      rw [show w.wake.context = some c from hc]
      exact queueUp_of_up (s := w) _ hl (upRoom_of_lt (t := w) hown rfl)
    have hend : wakeEnd x (.start s) (s.withRunning []) = (permitAtWake (sendResume w), .start s) := by
      have hz := replaceRising_zero (s := (s.withRunning []).withEng { (s.withRunning []).eng with
        platform := .working, plan := none }) (.start s) hrising
      have hcheck : (s.withRunning []).resumeCheck = true := (resumeCheck_iff s).2 hreq
      unfold wakeEnd
      rw [if_pos hcheck, hz, Departed.start_join]
      rfl
    rw [hend, hsend, permitAtWake_eq (s := w.upQueued _) hl] at hexec
    have hfin := hexec.trans (congrArg Host.Outcome.next (endEvent_start_of_railsGood (hr.congr rfl rfl)))
    exact ⟨_, s.unknownSet, s.railFaultSet, hfin, rfl, rfl, rfl, hrising, unknownSet_getLsbD s, fun e => setOf_domains _ e, rfl,
      rfl, rfl, rfl, rfl, rfl, rfl, rfl⟩
  · have hcheck : (s.withRunning []).resumeCheck = false := by
      rw [← Bool.not_eq_true, show (s.withRunning []).resumeCheck = s.resumeCheck from rfl, resumeCheck_iff]
      exact fun h => hnot (h d hd)
    have hend : wakeEnd x (.start s) (s.withRunning []) =
        beginForcing ⟨.resumeCheck, some (3 + x.code), none⟩ (.start s) (s.withRunning []) := by
      unfold wakeEnd
      exact if_neg (by rw [hcheck]; decide)
    obtain ⟨u, hu, hf⟩ := endEvent_beginForcing_safe (s := s.withRunning []) (left := .start s)
      (cause := ⟨.resumeCheck, some (3 + x.code), none⟩) hcount
      (by unfold State.orderedDomains; rw [show (s.withRunning []).eng.undo = none from hundo]; rfl)
      (by simp [State.linkHeld, show (s.withRunning []).ldr.loading = none from hload])
    rw [hend, hu] at hexec
    obtain ⟨heng, hst, hlink, hwake, hqual, hgate, hlines, -, -, -⟩ := hf
    refine ⟨u, hexec, ?_⟩
    rw [heng, hlines, hlink, hwake, hqual, hgate]
    exact ⟨rfl, rfl, rfl, rfl, rfl, hst, rfl, rfl, rfl, hc, rfl, rfl, rfl, rfl, rfl, rfl⟩

/-! ## Records that leave at an event (R143, R148) -/

/-- The answers to the ASKs of a list of records (R140, R148). -/
def askAnswers (l : List HoldRecord) : List Frame :=
  (l.filter fun r => decide (r.frame.kind = .ask)).map fun r => gateAnswer r.frame 1#8

/-- Records leave with the link UP: their ASKs are answered ASLEEP, the others counted. -/
def State.recordsAnswered (s : State) (l : List HoldRecord) : State :=
  (s.withUp { s.up with own := s.up.own ++ askAnswers l }).withCounters { s.mgmt.counters with
    discarded := min 255 (s.mgmt.counters.discarded + (l.filter fun r => decide (r.frame.kind ≠ .ask)).length) }

/-- n records leave with the link DOWN. -/
def State.recordsLost (s : State) (n : Nat) : State :=
  s.withCounters { s.mgmt.counters with discarded := min 255 (s.mgmt.counters.discarded + n) }

theorem recordsLost_zero (h : s.mgmt.counters.discarded ≤ 255) : s.recordsLost 0 = s := by
  unfold State.recordsLost
  rw [Nat.add_zero, Nat.min_eq_right h]
  rfl

theorem countDiscarded_recordsLost (n : Nat) : (countDiscarded 1 s).recordsLost n = s.recordsLost (n + 1) := by
  have h : min 255 (min 255 (s.mgmt.counters.discarded + 1) + n) = min 255 (s.mgmt.counters.discarded + (n + 1)) := by omega
  unfold State.recordsLost
  rw [← h]
  rfl

theorem dropRecords_down_eq (lost : HoldRecord → Bool) (l : List HoldRecord) (hl : s.dom.linkUp = false)
    (hc : s.mgmt.counters.discarded ≤ 255) : dropRecords lost l s = s.recordsLost l.length := by
  induction l generalizing s with
  | nil => exact (recordsLost_zero hc).symm
  | cons r l ih =>
    show dropRecords lost l (dropRecord lost s r) = _
    rw [dropRecord_down lost r hl, ih (s := countDiscarded 1 s) hl (Nat.min_le_left _ _), countDiscarded_recordsLost]
    rfl

theorem dropRecords_up_eq (l : List HoldRecord) (hl : s.dom.linkUp = true) (hroom : s.up.own.length + l.length < 23)
    (hc : s.mgmt.counters.discarded ≤ 255) : dropRecords (fun _ => false) l s = s.recordsAnswered l := by
  induction l generalizing s with
  | nil =>
    unfold State.recordsAnswered askAnswers
    show s = _
    simp only [List.filter_nil, List.map_nil, List.append_nil, List.length_nil, Nat.add_zero, Nat.min_eq_right hc]
    rfl
  | cons r l ih =>
    rw [List.length_cons] at hroom
    show dropRecords (fun _ => false) l (refuseDown r.frame s) = _
    by_cases hk : r.frame.kind = .ask
    · have hr : refuseDown r.frame s = s.upQueued (gateAnswer r.frame 1#8) :=
        (if_pos ⟨hk, hl⟩).trans (queueUp_of_up _ hl (upRoom_of_lt (by omega) rfl))
      have ha : askAnswers (r :: l) = gateAnswer r.frame 1#8 :: askAnswers l := by simp [askAnswers, hk]
      have hn : ((r :: l).filter fun r => decide (r.frame.kind ≠ .ask)) = l.filter fun r => decide (r.frame.kind ≠ .ask) :=
        List.filter_cons_of_neg (by simp [hk])
      rw [hr, ih (s := s.upQueued _) hl (by simp [State.upQueued]; omega) hc]
      unfold State.recordsAnswered
      rw [ha, hn, show (s.upQueued (gateAnswer r.frame 1#8)).up.own = s.up.own ++ [gateAnswer r.frame 1#8] from rfl,
        List.append_assoc]
      rfl
    · have hr : refuseDown r.frame s = countDiscarded 1 s := if_neg fun h => hk h.1
      have ha : askAnswers (r :: l) = askAnswers l := by simp [askAnswers, hk]
      have hn : ((r :: l).filter fun r => decide (r.frame.kind ≠ .ask)) =
          r :: l.filter fun r => decide (r.frame.kind ≠ .ask) := List.filter_cons_of_pos (by simp [hk])
      rw [hr, ih (s := countDiscarded 1 s) hl (by simp [countDiscarded, State.withCounters]; omega) (Nat.min_le_left _ _)]
      unfold State.recordsAnswered
      rw [ha, hn, List.length_cons]
      have hs (n : Nat) : min 255 (min 255 (s.mgmt.counters.discarded + 1) + n) =
          min 255 (s.mgmt.counters.discarded + (n + 1)) := by omega
      rw [← hs]
      rfl

/-- With the link UP the answers of one step of an event stand ahead of the frame that a later step makes. Log entry 30. -/
theorem reclassify_ahead (x : DomainSet) (f : Frame) (hl : s.dom.linkUp = true)
    (hroom : s.up.own.length + (s.gate.hold.filter (s.downRecordOf x)).length < 23) (hc : s.mgmt.counters.discarded ≤ 255)
    (hown : t.up.own = s.up.own ++ [f]) (hdom : t.dom = s.dom) (hmgmt : t.mgmt = s.mgmt) :
    reclassify (depart x (.start s) s).2 t =
      (t.recordsAnswered (s.gate.hold.filter (s.downRecordOf x))).withUp { t.up with
        own := s.up.own ++ askAnswers (s.gate.hold.filter (s.downRecordOf x)) ++ [f] } := by
  have hagents : t.dom.agentMap = s.dom.agentMap := congrArg _ hdom
  have hlt : t.dom.linkUp = true := by rw [hdom, hl]
  have hj : (depart x (.start s) s).2 = ⟨s.gate.hold, 0#12 ||| x, 0#12,
      if s.gate.hold.any (s.downRecordOf x) then s.up.own.length else 0⟩ := by
    show Departed.join _ x s = _
    unfold Departed.join
    rw [if_pos hl]
    rfl
  have hrec : (depart x (.start s) s).2.records t = s.gate.hold.filter (s.downRecordOf x) := by
    simp [hj, Departed.records, downRecordOf_congr hagents]
  have hlost : (depart x (.start s) s).2.lostRecord t = fun _ => false := by simp [hj, Departed.lostRecord]
  unfold reclassify
  rw [hrec, hlost, hj]
  generalize hleaving : s.gate.hold.filter (s.downRecordOf x) = l at hroom ⊢
  cases l with
  | nil =>
    show t = _
    unfold State.recordsAnswered askAnswers
    simp only [List.filter_nil, List.map_nil, List.append_nil, List.length_nil, Nat.add_zero, hmgmt, Nat.min_eq_right hc]
    rw [← hown, ← hmgmt]
    rfl
  | cons r l =>
    have hany : s.gate.hold.any (s.downRecordOf x) = true := by
      have hr : r ∈ s.gate.hold.filter (s.downRecordOf x) := by rw [hleaving]; exact List.mem_cons_self
      exact List.any_eq_true.2 ⟨r, List.mem_filter.1 hr⟩
    have hdrop : t.up.own.drop s.up.own.length = [f] := by rw [hown, List.drop_left]
    have htake : t.withOwnTaken s.up.own.length = t.withUp { t.up with own := s.up.own } := by
      unfold State.withOwnTaken
      rw [hown, List.take_left]
    have hpass : passAt s.up.own.length (fun _ => false) (r :: l) t =
        queueUp f (dropRecords (fun _ => false) (r :: l) (t.withUp { t.up with own := s.up.own })) := by
      unfold passAt
      simp only [if_pos hlt, hdrop, htake]
      rfl
    have hans : (askAnswers (r :: l)).length ≤ (r :: l).length := by
      rw [askAnswers, List.length_map]
      exact List.length_filter_le _ _
    simp only [if_pos hany]
    rw [hpass, dropRecords_up_eq (s := t.withUp { t.up with own := s.up.own }) (r :: l) hlt hroom
      (by show t.mgmt.counters.discarded ≤ 255; rw [hmgmt]; exact hc)]
    have hlen : (s.up.own ++ askAnswers (r :: l)).length < 23 := by
      rw [List.length_append]
      omega
    let v := (t.withUp { t.up with own := s.up.own }).recordsAnswered (r :: l)
    exact queueUp_of_up (s := v) f hlt (upRoom_of_lt (s := v) (t := v) hlen rfl)

/-! ## The end of an entry -/

/-- The records that leave when the Rising set is emptied (R148). -/
theorem downRecordOf_leaving (s : State) : s.downRecordOf (s.leaving 0#12) = s.HeldForRising := by
  have hb : hasBit (s.leaving 0#12) = fun d : Domain => s.eng.rising.getLsbD d && decide (s.recorded d ≠ .on) := by
    funext d
    show (Machine.setOf allDomains _).getLsbD d = _
    have hzero : (0#12).getLsbD d = false := BitVec.getLsbD_zero
    rw [setOf_domains, hasBit, diff_getLsbD, hzero, Bool.not_false, Bool.and_true]
  funext r
  unfold State.downRecordOf State.recordOf State.HeldForRising
  rw [hb]

/-- The entry has ended: the Engine rests, the Wake Arm is set and the sleep-duration counter starts (R62). -/
def State.entered (s : State) (t : Sleep) : State :=
  startSleepCount (setArm (s.withEng { s.eng with
    platform := .rest t, plan := none, running := [], rising := 0#12, undoStack := [] }))

/-- The REPORT of an entry that has completed (R62). -/
def State.entryReport (s : State) (t : Sleep) : Report := ⟨some t.code, .completed, .noCause, none, none, s.unknownSet⟩

theorem acceptLatched_none (f : Sleep) (left : Departed) (h : s.wake.latch &&& s.wake.armed = 0#16) :
    acceptLatched f left s = (s, left) := by
  unfold acceptLatched
  rw [h]
  rfl

/-- An entry ends with no armed source latched (R62). -/
theorem entryEnd_eq (x : Sleep) (ha : s.wake.latch &&& s.wake.armed = 0#16) :
    entryEnd x (.start s) (s.withRunning []) =
      (makeReport (s.entryReport x) ((s.entered x).withHold (s.gate.hold.filter fun r => !s.HeldForRising r)),
        (depart (s.leaving 0#12) (.start s) s).2) := by
  have hw (r : Report) (v : State) (hv : v.wake.latch &&& v.wake.armed = 0#16) :
      (makeReport r v).wake.latch &&& (makeReport r v).wake.armed = 0#16 := by
    rw [show (makeReport r v).wake = v.wake from queueUp_wake (recordReport r v) (reportNotice r)]
    exact hv
  have hrec : (s.gate.hold.filter fun r => !s.downRecordOf (s.leaving 0#12) r) =
      s.gate.hold.filter fun r => !s.HeldForRising r := by rw [downRecordOf_leaving]
  have he : entryEnd x (.start s) (s.withRunning []) = acceptLatched x (depart (s.leaving 0#12) (.start s) s).2
      (makeReport (s.entryReport x) ((s.entered x).withHold (s.gate.hold.filter fun r => !s.downRecordOf (s.leaving 0#12) r))) :=
    rfl
  rw [he, hrec]
  exact acceptLatched_none (s := makeReport _ _) _ _ (hw _ ((s.entered x).withHold _) ha)

theorem makeReport_of_room (r : Report) (h : s.up.own.length < 23) :
    makeReport r s = if s.dom.linkUp then (recordReport r s).upQueued (reportNotice r) else recordReport r s :=
  queueUp_of_room (s := recordReport r s) _ fun _ => upRoom_of_lt (t := recordReport r s) h rfl

theorem makeReport_fields (r : Report) (s : State) : (makeReport r s).dom = s.dom ∧ (makeReport r s).mon = s.mon ∧
    (makeReport r s).wake = s.wake ∧ (makeReport r s).qual = s.qual ∧ (makeReport r s).lines = s.lines ∧
    (makeReport r s).gate = s.gate ∧ (makeReport r s).eng = (recordReport r s).eng :=
  ⟨queueUp_dom _ (recordReport r s), queueUp_mon (recordReport r s) _, queueUp_wake (recordReport r s) _,
    queueUp_qual (recordReport r s) _, queueUp_lines (recordReport r s) _, queueUp_gate (recordReport r s) _,
    queueUp_eng (recordReport r s) _⟩

/-- Settles O41. -/
theorem lastMemberEndsTheEntry : Obligations.LastMemberEndsTheEntry := by
  intro s m t hp hrun ht ha ho hr
  have hexec := exec_delayExpiry_last hrun ha ho ht
  have hp' : (s.withRunning []).eng.platform = .entering t := hp
  have hcompleted (habort : s.eng.abortPending = none) (hw : s.wake.latch &&& s.wake.armed = 0#16) (v : State)
      (hv : makeReport (s.entryReport t) ((s.entered t).withHold (s.gate.hold.filter fun r => !s.HeldForRising r)) = v)
      (hvr : v.RailsGood) :
      exec (.delayExpiry m.plan.position) s = .next (reclassify (depart (s.leaving 0#12) (.start s) s).2 v) := by
    have hs : settle ⟨s.withRunning [], .start s, .completed⟩ = entryEnd t (.start s) (s.withRunning []) := by
      unfold settle
      simp only [hp']
    rw [hexec, if_neg (by simp [State.abortsAtGroupEnd, habort]), hs, entryEnd_eq t hw, hv, endEvent_of_railsGood hvr]
  refine ⟨fun leaving habort hw hleaving hown hdisc => ?_, fun hh hown habort hw => ?_, fun src hh hown habort hstack => ?_⟩
  · let e := (s.entered t).withHold (s.gate.hold.filter fun r => !s.HeldForRising r)
    have hleaving' : leaving = s.gate.hold.filter (s.downRecordOf (s.leaving 0#12)) := by rw [downRecordOf_leaving]; exact hleaving
    have hroom : e.up.own.length < 23 := by
      show s.up.own.length < 23
      omega
    have hmake := makeReport_of_room (s.entryReport t) hroom
    by_cases hl : s.dom.linkUp = true
    · have hfin := hcompleted habort hw _ (hmake.trans (if_pos hl)) (hr.congr rfl rfl)
      have hre := reclassify_ahead (t := (recordReport (s.entryReport t) e).upQueued (reportNotice (s.entryReport t)))
        (s.leaving 0#12) (reportNotice (s.entryReport t)) hl (by rw [← hleaving']; exact hown) hdisc rfl rfl rfl
      rw [← hleaving'] at hre
      exact ⟨_, hfin.trans (congrArg Host.Outcome.next hre), rfl, rfl, rfl,
        fun _ => ⟨⟨reportNotice (s.entryReport t), rfl, rfl⟩, rfl⟩, fun h => absurd hl (by simp [h])⟩
    · have hl' : s.dom.linkUp = false := Bool.not_eq_true _ ▸ hl
      have hfin := hcompleted habort hw _ (hmake.trans (if_neg hl)) (hr.congr rfl rfl)
      have hre := reclassify_depart (s := s) (t := recordReport (s.entryReport t) e) (s.leaving 0#12) rfl rfl rfl
      rw [← hleaving', dropRecords_down_eq (s := recordReport (s.entryReport t) e) _ _ hl' hdisc] at hre
      exact ⟨_, hfin.trans (congrArg Host.Outcome.next hre), rfl, rfl, rfl, fun h => absurd h hl, fun _ => ⟨rfl, rfl⟩⟩
  · let e := (s.entered t).withHold (s.gate.hold.filter fun r => !s.HeldForRising r)
    have hgate : e.gate = s.gate := by
      show ({ s.gate with hold := s.gate.hold.filter _ } : Gate) = s.gate
      rw [hh, List.filter_nil, ← hh]
    have hmake := makeReport_of_room (s := e) (s.entryReport t) hown
    have hfin := hcompleted habort hw _ rfl
      (hr.congr (congrArg DomainTable.config (makeReport_fields _ e).1) (makeReport_fields _ e).2.1)
    have hq : (depart (s.leaving 0#12) (.start s) s).2.queue = [] := (join_queue (.start s) (s.leaving 0#12) s).trans hh
    rw [reclassify_empty hq, show makeReport _ _ = _ from hmake] at hfin
    by_cases hl : s.dom.linkUp = true
    · rw [if_pos (show e.dom.linkUp = true from hl)] at hfin
      exact ⟨_, s.unknownSet, hfin, rfl, rfl, rfl, rfl, rfl, rfl, rfl, unknownSet_getLsbD s, rfl, (if_pos hl).symm, rfl, rfl,
        hgate, rfl⟩
    · rw [if_neg (show ¬ e.dom.linkUp = true from hl)] at hfin
      exact ⟨_, s.unknownSet, hfin, rfl, rfl, rfl, rfl, rfl, rfl, rfl, unknownSet_getLsbD s, rfl, (if_neg hl).symm, rfl, rfl,
        hgate, rfl⟩
  · have hs : settle ⟨s.withRunning [], .start s, .abortAtGroupEnd⟩ =
        beginUnwinding t ⟨.wake, none, s.eng.abortPending⟩ (.start s) (s.withRunning []) := by
      unfold settle
      simp only [hp']
      rfl
    rw [if_pos (by simp [State.abortsAtGroupEnd, hp, habort, Platform.isEntering]), hs, habort] at hexec
    obtain ⟨h1, h2⟩ := beginUnwinding_nil (s := s.withRunning []) (left := .start s) t ⟨.wake, none, some src⟩ hh hh hstack
    let r : Report := ⟨some t.code, .aborted, .wake, none, some src, s.unknownSet⟩
    let w := ((s.withRunning []).unwindingFrom t ⟨.wake, none, some src⟩).unwound
    replace h1 : (beginUnwinding t ⟨.wake, none, some src⟩ (.start s) (s.withRunning [])).1 = makeReport r w := h1
    obtain ⟨hdom, hmon, hwake, hqual, hlines, -, heng⟩ := makeReport_fields r w
    rw [endEvent_of_quiet (by rw [h1]; exact hr.congr (congrArg DomainTable.config hdom) hmon) (.inl h2), h1] at hexec
    refine ⟨_, s.unknownSet, hexec, ?_⟩
    rw [heng, hdom, hwake, hqual, hlines]
    exact ⟨rfl, rfl, rfl, rfl, rfl, rfl, rfl, unknownSet_getLsbD s, rfl, rfl, rfl⟩

end Sys2Proof.Machine
end

section
/-! SUPPORT. Deglitched power-good changes and blanking expiries, and the rail faults that they latch (R56, R151 to R158). The
statement O44 is settled here. -/

namespace Sys2Proof.Machine

variable {s : State} {d : Domain} {l : PgLine}

/-! ## One faulty domain -/

/-- A monitored domain whose line is DEASSERTED is faulty (R152, R153). -/
structure State.Faulty (s : State) (d : Domain) (l : PgLine) : Prop where
  line : (s.config d).pgLine = some l
  level : s.pgLevel l = false
  monitors : (s.config d).monitors (s.recorded d) = true
  fault : s.dom.status[d].fault = .noFault
  running : ∀ m ∈ s.eng.running, m.plan.step.action.domain = none
  undo : s.eng.undo = none

theorem State.Faulty.railFaulty (h : s.Faulty d l) : s.railFaulty d = true := by
  have hf : s.inFlight d = false := by
    unfold State.inFlight
    rw [h.undo, Bool.or_eq_false_iff]
    exact ⟨List.any_eq_false.2 fun m hm => by simp [h.running m hm], rfl⟩
  have hfault := h.fault
  simp only [Fin.getElem_fin] at hfault
  simp [State.railFaulty, State.monitored, h.line, h.level, h.monitors, hfault, hf]

/-- No rail of another domain is lost. -/
def State.OthersGood (s : State) (d : Domain) : Prop :=
  ∀ (e : Domain) (k : PgLine), e ≠ d → (s.config e).pgLine = some k → s.pgLevel k = true

theorem railFaulty_railLatched {left : Departed} (ho : s.OthersGood d) (e : Domain) : (s.railLatched d, left).1.railFaulty e = false := by
  by_cases he : e = d
  · refine railFaulty_of_fault ?_
    show (s.railLatched d).dom.status[e].fault ≠ .noFault
    rw [railLatched_status, if_pos he]
    simp
  · exact railFaulty_of_line fun k hk => ho e k he hk

/-- The end of an event that finds one domain faulty, where the latch leaves none faulty. -/
theorem endEvent_one {left : Departed} {u t : State} (h : s.Faulty d l) (ho : s.OthersGood d)
    (hlatch : latchRail d (s, left) = (u, .start t)) (hu : ∀ e, u.railFaulty e = false) : endEvent (s, left) = u := by
  have h1 := monitorFrom_one (n := 11) (p := (s, left)) h.railFaulty fun e he => railFaulty_of_line fun k hk => ho e k he hk
  rw [hlatch, monitorFrom_none (p := (u, .start t)) hu] at h1
  unfold endEvent
  rw [h1]
  exact reclassify_start t u

theorem endEvent_report {t : State} (h : s.Faulty d l) (ho : s.OthersGood d) (hp : (s.config d).policy = .report)
    (hroom : s.UpRoom) :
    endEvent (s, .start t) = if s.dom.linkUp then (s.railLatched d).upQueued (railNotice d) else s.railLatched d := by
  refine endEvent_one h ho (latchRail_of_report _ hp hroom) fun e => ?_
  split
  · exact railFaulty_railLatched (left := .start t) ho e
  · exact railFaulty_railLatched (left := .start t) ho e

theorem latchRail_of_shutdown (left : Departed) (hp : (s.config d).policy = .shutdown) :
    latchRail d (s, left) = forcingEvent .railFault left (s.railLatched d) := by
  simp only [latchRail, hp, writeLatched]

/-! ## The override event and the rail-fault event -/

section
variable (cause : ReportCause) (left : Departed)

theorem forcingEvent_ignored (h : s.eng.platform = .rest .softoff ∨ s.eng.platform = .forcing) :
    forcingEvent cause left s = (s, left) := by
  unfold forcingEvent
  obtain h | h := h <;> rw [h]

theorem forcingEvent_deferred {loading : Loading} (h : s.eng.platform = .working) (hl : s.ldr.loading = some loading)
    (hd : loading.deferred = none) : forcingEvent cause left s =
      (s.withLdr { s.ldr with loading := some { loading with deferred := some cause } }, left) := by
  unfold forcingEvent deferForcing
  simp [h, State.isLoading, hl, hd]

theorem forcingEvent_forces (hs : s.eng.platform ≠ .rest .softoff) (hf : s.eng.platform ≠ .forcing) (hl : s.ldr.loading = none) :
    forcingEvent cause left s = beginForcing ⟨cause, s.eng.platform.sequence, none⟩ left s := by
  unfold forcingEvent
  cases hp : s.eng.platform with
  | forcing => exact absurd hp hf
  | working => simp [State.isLoading, hl, Platform.sequence]
  | rest f =>
    cases f with
    | softoff => exact absurd hp hs
    | standby | hibernate => rfl
  | entering | unwinding | waking => rfl

end

/-! ## Changes of a level -/

theorem writePg_pgLevel (l k : PgLine) (a : Bool) (s : State) : (writePg l a s).pgLevel k = if k = l then a else s.pgLevel k := by
  show (s.mon.pg.set l ⟨a, 0⟩)[k].level = _
  rw [vector_getElem_set]
  split <;> rfl

theorem exec_powerGoodChange {a : Bool} (h : s.pgLevel l ≠ a) :
    exec (.powerGoodChange l a) s = .next (endEvent (completeAwaiting l a (writePg l a s))) := by
  show execPowerGoodChange l a s = _
  rw [execPowerGoodChange, if_neg h]

theorem completeAwaiting_none {a : Bool} (h : ∀ m ∈ s.eng.running, s.awaits l a m = false) :
    completeAwaiting l a s = (s, .start s) := by
  have hf : s.eng.running.filter (s.awaits l a) = [] := List.filter_eq_nil_iff.2 fun m hm => by simp [h m hm]
  unfold completeAwaiting
  rw [hf]

theorem awaits_of_other {a : Bool} (m : Member) (h : ∀ d : Domain, (s.config d).pgLine ≠ some l) : s.awaits l a m = false := by
  unfold State.awaits
  split
  · simp [h]
  all_goals rfl

theorem awaits_of_delay {a : Bool} {m : Member} {p : Option (Domain × Option OrdState)} (h : m.plan.step.action = .delay p) :
    s.awaits l a m = false := by
  unfold State.awaits
  rw [h]

/-- An AWAIT-GOOD member completes while others run on (R56). -/
theorem completeAwaiting_one {a : Bool} {m : Member} {before after : List Member} (hrun : s.eng.running = before ++ m :: after)
    (hm : s.awaits l a m = true) (ho : ∀ x ∈ before ++ after, s.awaits l a x = false) :
    completeAwaiting l a s = memberCompleted m s := by
  have hf : s.eng.running.filter (s.awaits l a) = [m] := by
    rw [hrun, List.filter_append, List.filter_cons_of_pos hm,
      List.filter_eq_nil_iff.2 fun x hx => by simp [ho x (List.mem_append_left _ hx)],
      List.filter_eq_nil_iff.2 fun x hx => by simp [ho x (List.mem_append_right _ hx)]]
    rfl
  unfold completeAwaiting
  rw [hf]
  rfl

/-- The line of a monitored domain goes DEASSERTED (R152). -/
theorem faulty_of_deasserted (hpg : (s.config d).pgLine = some l) (hmon : (s.config d).monitors (s.recorded d) = true)
    (hfault : s.dom.status[d].fault = .noFault) (hrun : ∀ m ∈ s.eng.running, m.plan.step.action.domain = none)
    (hundo : s.eng.undo = none) : (writePg l false s).Faulty d l :=
  ⟨hpg, (writePg_pgLevel l l false s).trans (if_pos rfl), hmon, hfault, hrun, hundo⟩

theorem othersGood_of_deasserted
    (h : ∀ (e : Domain) (k : PgLine), e ≠ d → (s.config e).pgLine = some k → k ≠ l ∧ s.pgLevel k = true) :
    (writePg l false s).OthersGood d := fun e k he hk => by
  rw [writePg_pgLevel, if_neg (h e k he hk).1]
  exact (h e k he hk).2

theorem orderedDomains_nil (hrun : ∀ m ∈ s.eng.running, m.plan.step.action.orderDomain = none) (hundo : s.eng.undo = none) :
    s.orderedDomains = [] := by
  unfold State.orderedDomains
  rw [hundo, List.filterMap_eq_nil_iff.2 hrun]
  rfl

theorem sequence_eq (p : Platform) : p.sequence = match p with
    | .entering t => some t.code | .unwinding t => some t.code | .waking x => some (3 + x.code)
    | .working => none | .rest _ => none | .forcing => some 6 := by cases p <;> rfl

/-- Settles O44. -/
theorem powerGoodChangesCompleteOrLatch : Obligations.PowerGoodChangesCompleteOrLatch := by
  intro s l
  refine ⟨fun a h => ?_, fun a h hgood => ?_, fun d hlev hpg hpol hmon hfault hrun hundo hroom hgood => ?_,
    fun d status hlev hpg hpol hmon hfault hrun hundo hgood hstatus => ?_,
    fun m before after d hrun hlev ha hpg hothers hgood => ?_, fun d hfault hblank hgood => ?_⟩
  · show execPowerGoodChange l a s = _
    rw [execPowerGoodChange, if_pos h]
  · have hrails : (writePg l a s).RailsGood := fun d k hk => by
      rw [writePg_pgLevel, if_neg (hgood d k hk).1]
      exact (hgood d k hk).2
    have hnone := completeAwaiting_none (s := writePg l a s) (a := a) fun m _ => awaits_of_other m fun d hd => (hgood d l hd).1 rfl
    rw [exec_powerGoodChange h, hnone, endEvent_start_of_railsGood hrails]
    rfl
  · have hnone := completeAwaiting_none (s := writePg l false s) (l := l) (a := false) fun m hm => by
      rw [show (writePg l false s).eng.running = [] from hrun] at hm
      exact absurd hm List.not_mem_nil
    have hend := endEvent_report (t := writePg l false s) (faulty_of_deasserted hpg hmon hfault
      (fun m hm => by rw [hrun] at hm; exact absurd hm List.not_mem_nil) hundo) (othersGood_of_deasserted hgood) hpol fun _ =>
        upRoom_of_lt (s := s) hroom rfl
    refine ⟨((writePg l false s).railLatched d).dom.status, railLatched_status _ d, ?_⟩
    rw [exec_powerGoodChange (by simp [hlev]), hnone, hend]
    by_cases hl : s.dom.linkUp = true
    · rw [if_pos hl, if_pos (show (writePg l false s).dom.linkUp = true from hl)]
      rfl
    · rw [if_neg hl, if_neg (show ¬ (writePg l false s).dom.linkUp = true from hl)]
      rfl
  · let w := writePg l false s
    have hnone := completeAwaiting_none (s := w) (l := l) (a := false) fun m hm => awaits_of_delay (hrun m hm)
    have hfaulty : w.Faulty d l := faulty_of_deasserted hpg hmon hfault (fun m hm => by rw [hrun m hm]; rfl) hundo
    have hothers : w.OthersGood d := othersGood_of_deasserted hgood
    have hst : status = (w.railLatched d).dom.status :=
      vector_ext_fin fun e => (hstatus e).trans (railLatched_status w d e).symm
    have hexec : exec (.powerGoodChange l false) s = .next (endEvent (w, .start w)) := by
      rw [exec_powerGoodChange (by simp [hlev]), hnone]
    have hlatch := latchRail_of_shutdown (s := w) (.start w) hpol
    refine ⟨fun hp => ?_, fun loading hp hload hdef => ?_, fun hns hnf hload hcount => ?_⟩
    · rw [forcingEvent_ignored (s := w.railLatched d) .railFault (.start w) hp] at hlatch
      rw [hexec, endEvent_one hfaulty hothers hlatch (railFaulty_railLatched (left := .start w) hothers), hst]
      rfl
    · rw [forcingEvent_deferred (s := w.railLatched d) .railFault (.start w) hp hload hdef] at hlatch
      rw [hexec, endEvent_one hfaulty hothers hlatch (railFaulty_railLatched (left := .start w) hothers), hst]
      rfl
    · obtain ⟨u, t, hf, hu⟩ := beginForcing_safe (s := w.railLatched d) (left := .start w)
        (cause := ⟨.railFault, s.eng.platform.sequence, none⟩) hcount (orderedDomains_nil (fun m hm => by
          rw [hrun m hm]
          rfl) hundo) (by simp [State.linkHeld, show (w.railLatched d).ldr.loading = none from hload])
      rw [forcingEvent_forces (s := w.railLatched d) .railFault (.start w) hns hnf hload] at hlatch
      have hend := endEvent_one hfaulty hothers (hlatch.trans hf) hu.railFaulty
      obtain ⟨heng, hoff, hlink, hwake, -, -, hlines, -, -, -⟩ := hu
      refine ⟨u, by rw [hexec, hend], ?_⟩
      rw [heng, hlines, hlink, hwake]
      refine ⟨rfl, rfl, rfl, rfl, rfl, rfl, rfl, rfl, rfl, fun e => by rw [hst]; exact hoff e, ?_⟩
      exact congrArg (fun q => some (Report.mk q _ _ _ _ _)) (sequence_eq _)
  · let w := writePg l true s
    have hends : w.EndsTo m (before ++ after) := hrun.endsTo.congr rfl
    have hone := completeAwaiting_one (s := w) (l := l) (a := true) hrun.running
      (by rw [State.awaits, ha]; exact decide_eq_true ⟨hpg, rfl⟩) fun x hx => by
        unfold State.awaits
        split
        · next e b st hact => exact absurd hact (hothers x hx e b st)
        all_goals rfl
    have hrails : w.RailsGood := fun e k hk => by
      rw [writePg_pgLevel]
      split
      · rfl
      · next hne => exact (hgood e k hk).resolve_left hne
    have hdone : doneWritten m w = w := doneWritten_none (by rw [ha]; rfl)
    have hpush : w.pushedBy m = [] := by
      unfold State.pushedBy undoOf
      rw [ha]
      exact ite_self _
    have hend := endEvent_memberCompleted hends hrun.others hrails (by
      rw [hdone]
      exact leavesQuietly_of_on w fun e he => by rw [ha] at he; simp [Action.endsOn] at he)
    rw [exec_powerGoodChange (by simp [hlev]), hone, hend, hdone, hpush]
    rfl
  · let w := s.withStatus d { s.dom.status[d] with fault := .noFault, blanking := none }
    have hwd (e : Domain) : w.dom.status[e] =
        if e = d then { s.dom.status[d] with fault := .noFault, blanking := none } else s.dom.status[e] := withStatus_status _ _ _ _
    have hexec : exec (.blankingExpiry d) s = .next (endEvent (w, .start w)) := by
      show execBlankingExpiry d s = _
      rw [execBlankingExpiry, if_pos ⟨hfault, hblank⟩]
      rfl
    by_cases hlow : ∃ k, (s.config d).pgLine = some k ∧ s.pgLevel k = false
    · obtain ⟨k, hpg, hlev⟩ := hlow
      refine ⟨(w.railLatched d).dom.status, fun e he => ?_, fun h => ?_, fun k' hpg' hlev' hmon hrun hundo hpol hl => ⟨?_, ?_⟩⟩
      · rw [railLatched_status, if_neg he, hwd e, if_neg he]
      · obtain h | ⟨k', hpg', hlev'⟩ := h
        · rw [h] at hpg
          exact absurd hpg (by simp)
        · rw [hpg] at hpg'
          rw [Option.some.inj hpg', hlev'] at hlev
          exact absurd hlev (by decide)
      · rw [railLatched_status, if_pos rfl, hwd d, if_pos rfl]
      · have hw : w.dom.status[d] = { s.dom.status[d] with fault := .noFault, blanking := none } := (hwd d).trans (if_pos rfl)
        have hrec : w.recorded d = s.recorded d := by
          show w.dom.status[d].recorded = _
          rw [hw]
          rfl
        have hfaulty : w.Faulty d k := ⟨hpg, hlev, by rw [hrec]; exact hmon, by rw [hw],
          fun m hm => by rw [show w.eng.running = [] from hrun] at hm; exact absurd hm List.not_mem_nil, hundo⟩
        have hend := endEvent_report (t := w) hfaulty hgood hpol fun h => absurd h (by rw [show w.dom.linkUp = false from hl]; decide)
        rw [hexec, hend, if_neg (by rw [show w.dom.linkUp = false from hl]; decide)]
        rfl
    · refine ⟨w.dom.status, fun e he => by rw [hwd e, if_neg he], fun _ => ⟨(hwd d).trans (if_pos rfl), ?_⟩,
        fun k hpg hlev => absurd ⟨k, hpg, hlev⟩ hlow⟩
      have hrails : w.RailsGood := fun e k hk => by
        by_cases he : e = d
        · subst he
          by_contra hc
          exact hlow ⟨k, hk, Bool.not_eq_true _ ▸ hc⟩
        · exact hgood e k he hk
      rw [hexec, endEvent_start_of_railsGood hrails]
      rfl

end Sys2Proof.Machine
end

section
/-! SUPPORT. The events of the wake lines, the seconds divider and the storm window (chapters 5 and 6). The statements O45, O46, O49
and O50 are settled here. -/

namespace Sys2Proof.Machine

variable {s : State} {left : Departed} {src : Source} {k : WakeLine} {high : Bool}

/-! ## Latch events -/

theorem latchEvent_eq (src : Source) (s : State) : latchEvent src s = latchFrom src (s, .start s) := rfl

theorem stormCounts_of_source_zero (s : State) : s.stormCounts 0 = false := by simp [State.stormCounts]

section
variable (left : Departed) (hc : s.stormCounts src = false) (hroom : s.UpRoom)
include hc hroom

theorem latchFrom_of_not_armed (ha : s.wake.armed.getLsbD src.val = false) : latchFrom src (s, left) = (s.latched src, left) := by
  rw [latchFrom_of_uncounted left hc, armStep_unarmed left ha, latchBit_of_room src hroom]

theorem latchFrom_of_armed (ha : s.wake.armed.getLsbD src.val = true) :
    latchFrom src (s, left) = armedLatch src left (s.latched src) := by
  rw [latchFrom_of_uncounted left hc]
  unfold armStep
  rw [if_pos (by rw [hasBit, latchBit_armed, ha]), latchBit_of_room src hroom]

end

theorem latched_eng (src : Source) (s : State) : (s.latched src).eng = s.eng := by
  unfold State.latched
  split
  · rfl
  · simp only
    split <;> rfl

theorem upRoom_of_short (h : s.up.own.length < 23) : s.UpRoom := fun _ => upRoom_of_lt h rfl

theorem latched_rails (src : Source) (h : s.RailsGood) : (s.latched src).RailsGood :=
  h.congr (congrArg DomainTable.config (latched_dom src s)) (latched_mon src s)

/-! ## Filtered changes of a line -/

theorem exec_lineFilteredChange_quiet (hlev : s.qual.lines[k].level ≠ high) (hm : s.qual.lines[k].mode.names high = false) :
    exec (.lineFilteredChange k high) s = .next (writeLineLevel k high s) := by
  show execLineFilteredChange k high s = _
  rw [execLineFilteredChange, if_neg hlev, if_neg (by rw [hm]; decide)]

theorem exec_lineFilteredChange_latch (hlev : s.qual.lines[k].level ≠ high) (hm : s.qual.lines[k].mode.names high = true) :
    exec (.lineFilteredChange k high) s =
      .next (endEvent (latchFrom (lineSource k) (writeLineLevel k high s, .start (writeLineLevel k high s)))) := by
  show execLineFilteredChange k high s = _
  rw [execLineFilteredChange, if_neg hlev, if_pos hm]
  rfl

theorem eq_lineSource (h : src.val = k.val + 2) : src = lineSource k := Fin.ext h

theorem not_names {m : LineMode} (h : m = .disabled ∨ (high = true ∧ (m = .fall ∨ m = .low)) ∨
    (high = false ∧ (m = .rise ∨ m = .high))) : m.names high = false := by
  obtain rfl | ⟨rfl, rfl | rfl⟩ | ⟨rfl, rfl | rfl⟩ := h <;> rfl

theorem names_of {m : LineMode} (h : m = .both ∨ (high = true ∧ (m = .rise ∨ m = .high)) ∨
    (high = false ∧ (m = .fall ∨ m = .low))) : m.names high = true := by
  obtain rfl | ⟨rfl, rfl | rfl⟩ | ⟨rfl, rfl | rfl⟩ := h <;> rfl

/-- Settles O45. -/
theorem lineChangesLatchTheirSource : Obligations.LineChangesLatchTheirSource := by
  intro s k high written hw
  have hwr : written = writeLineLevel k high s := hw
  clear hw
  subst hwr
  refine ⟨fun h => ?_, fun hlev => ⟨fun hm => exec_lineFilteredChange_quiet hlev (not_names hm),
    fun hm src hsrc hwin hr hroom => ?_⟩⟩
  · show execLineFilteredChange k high s = _
    rw [execLineFilteredChange, if_pos h]
  · obtain rfl := eq_lineSource hsrc
    let w := writeLineLevel k high s
    have hexec := exec_lineFilteredChange_latch hlev (names_of hm)
    have hlr : (w.latched (lineSource k)).RailsGood := latched_rails (s := w) _ hr
    have huncounted : w.stormCounts (lineSource k) = false := stormCounts_of_disabled (s := w) hwin
    have hend : endEvent (w.latched (lineSource k), .start w) = w.latched (lineSource k) := endEvent_start_of_railsGood hlr
    have heng : (w.latched (lineSource k)).eng = s.eng := latched_eng _ w
    refine ⟨fun ha => ?_, fun t ha hp => ?_⟩
    · rw [hexec, latchFrom_of_not_armed _ huncounted (upRoom_of_short (s := w) hroom) ha, hend]
    · rw [latchFrom_of_armed _ huncounted (upRoom_of_short (s := w) hroom) ha] at hexec
      have hcommit : (w.latched (lineSource k)).commitReached = s.commitReached := by
        unfold State.commitReached
        rw [heng]
      have harm : armedLatch (lineSource k) (.start w) (w.latched (lineSource k)) =
          if s.eng.abortPending.isNone && !s.commitReached
          then ((w.latched (lineSource k)).withEng { s.eng with abortPending := some (lineSource k) }, .start w)
          else (w.latched (lineSource k), .start w) := by
        unfold armedLatch
        simp only [hcommit, heng, hp]
      refine ⟨fun hab hc => ?_, fun hor => ?_⟩
      · rw [if_pos (by simp [hab, hc])] at harm
        rw [hexec, harm]
        exact congrArg Host.Outcome.next (endEvent_start_of_railsGood (hlr.congr rfl rfl))
      · rw [if_neg (by
          obtain h | h := hor
          · simp [Option.isNone_iff_eq_none, Option.isSome_iff_ne_none.1 h]
          · simp [h])] at harm
        rw [hexec, harm, hend]

/-! ## Wakes on a latch -/

theorem latched_of_down (src : Source) (hl : s.dom.linkUp = false) : s.latched src = s.withWake { s.wake with
    latch := s.wake.latch ||| BitVec.twoPow 16 src.val,
    generation := if s.wake.latch.getLsbD src.val then s.wake.generation else s.wake.generation + 1#16 } := by
  unfold State.latched
  by_cases hb : s.wake.latch.getLsbD src.val = true
  · have hs : s.wake.latch ||| BitVec.twoPow 16 src.val = s.wake.latch := by
      refine set_ext fun i => ?_
      show (setBit s.wake.latch src).getLsbD i = _
      rw [setBit_getLsbD]
      by_cases hi : i = src
      · rw [hi, hb]
        rfl
      · simp [hi]
    rw [if_pos hb, if_pos hb, hs]
    rfl
  · rw [if_neg hb, if_neg hb]
    exact if_neg (by rw [show (State.dom _).linkUp = s.dom.linkUp from rfl, hl]; decide)

/-- The state in which the Plan of a wake starts (R63, R102, R104). -/
def State.wakingFrom (s : State) (x : Sleep) (reason : Source) (steps : List PlanStep) : State :=
  ((stopSleepCount (disarm (captureContext x (.source reason) s))).withEng { s.eng with
    platform := .waking x, plan := some ⟨steps, 0, (s.dirEntry (3 + x.code)).commit⟩, rising := risingOf steps })

/-- A wake is accepted whose Plan begins with an ORDER in a group of its own (R63, R102). -/
theorem acceptWake_order {x : Sleep} {reason : Source} {steps rest : List PlanStep} {q : PlanStep} {d : Domain}
    {target : OrdState} {rev : Bool} {a : Addr} (hc : checkSequence s (3 + x.code) = .ok steps)
    (hsteps : (steps.filter fun y => y.step.guard.holds s.wake.armed (some reason)) = q :: rest)
    (hact : q.step.action = .order d target rev) (hj : q.step.join = false) (ha : (s.config d).agent = some a)
    (hown : s.down.own.length < 24) :
    acceptWake x (.source reason) left s = ((s.wakingFrom x reason (q :: rest)).orderStarted q d target a, left) := by
  have hrun := runSteps_order (s := s.wakingFrom x reason (q :: rest)) rest left hact hj ha hown
  have hc' : checkSequence (stopSleepCount (disarm (captureContext x (.source reason) s))) (3 + x.code) = .ok steps :=
    (checkSequence_congr (s := s) (t := stopSleepCount (disarm (captureContext x (.source reason) s))) rfl rfl rfl _).trans hc
  unfold acceptWake planOf WakeReason.asSource
  simp only [hc', hsteps]
  exact congrArg (settleWaking x) hrun

/-- Settles O46. -/
theorem armedLatchStartsTheWake : Obligations.ArmedLatchStartsTheWake := by
  intro s k high x src reason steps rest q d target rev a latch hlev hmode hsrc hwin hr hp harm harmed hl hlatch hreason
    hreasonArmed hlowest hcheck hsteps hact hj hagent hown
  obtain rfl := eq_lineSource hsrc
  let w := writeLineLevel k high s
  let v := w.latched (lineSource k)
  have hv : v = w.withWake { s.wake with
      latch := latch,
      generation := if s.wake.latch.getLsbD (lineSource k).val then s.wake.generation else s.wake.generation + 1#16 } := by
    rw [hlatch]
    exact latched_of_down (s := w) (lineSource k) hl
  have hexec := exec_lineFilteredChange_latch hlev (names_of (high := high) (.inl hmode))
  rw [latchFrom_of_armed (s := w) _ (stormCounts_of_disabled (s := w) hwin)
    (fun h => absurd h (by rw [show w.dom.linkUp = false from hl]; decide)) harmed, show w.latched (lineSource k) = v from rfl]
    at hexec
  have hlow : lowest (v.wake.latch &&& v.wake.armed) = some reason := by
    rw [hv]
    refine lowest_eq_some ?_ fun j hj => ?_
    · show (latch &&& s.wake.armed).getLsbD reason = true
      rw [BitVec.getLsbD_and, hreason, hreasonArmed]
      rfl
    · show (latch &&& s.wake.armed).getLsbD j = false
      rw [BitVec.getLsbD_and]
      obtain h | h := hlowest j hj <;> rw [h] <;> simp
  have haccept : armedLatch (lineSource k) (.start w) v = acceptWake x (.source reason) (.start w) v := by
    have hpv : v.eng.platform = .rest x := by rw [hv]; exact hp
    have harmv : v.wake.arm = true := by rw [hv]; exact harm
    unfold armedLatch
    simp only [hpv, harmv, if_true]
    unfold acceptLatched
    simp only [hlow]
  have hwake := acceptWake_order (s := v) (left := .start w) (x := x) (reason := reason) (steps := steps)
    ((checkSequence_congr (s := s) (t := v) (by rw [hv]; rfl) (by rw [hv]; rfl) (by rw [hv]; rfl) _).trans hcheck) (by rw [hv]; exact hsteps) hact hj
    (by rw [hv]; exact hagent) (by rw [hv]; exact hown)
  rw [haccept, hwake, hv] at hexec
  have hfin := hexec.trans (congrArg Host.Outcome.next (endEvent_start_of_railsGood (hr.congr rfl rfl)))
  exact ⟨_, hfin, rfl, rfl, rfl, rfl, rfl, rfl, rfl, rfl, rfl, rfl, rfl, rfl, fun e => risingOf_getLsbD _ e, rfl, rfl, rfl, rfl⟩

/-! ## Seconds -/

/-- The state with a seconds step counted (R120, R122, R123). -/
def State.secondCounted (s : State) : State := s.withQual { s.qual with
  divider := 0, secondsDue := false, wakeTimer := s.qual.wakeTimer - 1,
  sleepCount := if s.qual.sleepCounting then min secondsLimit (s.qual.sleepCount + 1) else s.qual.sleepCount }

theorem secondsStep_eq (s : State) : secondsStep s = endEvent
    (if s.qual.wakeTimer = 1 then latchFrom 1 (s.secondCounted, .start s.secondCounted)
      else (s.secondCounted, .start s.secondCounted)) := by
  unfold secondsStep stepWakeTimer stepSleep State.secondCounted
  by_cases h : s.qual.sleepCounting = true
  · simp only [State.withQual, h, if_true]
    rfl
  · simp only [State.withQual, h, Bool.false_eq_true, if_false]
    rfl

/-- Settles O49. -/
theorem secondsStepsCount : Obligations.SecondsStepsCount := by
  intro s counted hr hcounted
  have hc : counted = s.secondCounted := hcounted
  clear hcounted
  subst hc
  have hrails : s.secondCounted.RailsGood := hr.congr rfl rfl
  have hexec : exec .secondsStep s = .next (secondsStep s) := rfl
  have hexec' : exec .wakeTimerExpiry s = .next (if s.qual.wakeTimer = 1 then secondsStep s else s) := rfl
  refine ⟨fun h => ?_, fun h ha hw hroom => ?_, fun h => ?_⟩
  · rw [hexec, secondsStep_eq, if_neg h, endEvent_start_of_railsGood hrails]
  · have hs : secondsStep s = s.secondCounted.latched 1 := by
      rw [secondsStep_eq, if_pos h, latchFrom_of_not_armed (s := s.secondCounted) (src := 1) _ (stormCounts_of_disabled hw)
        (upRoom_of_short (s := s.secondCounted) hroom) ha,
        endEvent_start_of_railsGood (latched_rails 1 hrails)]
    rw [hexec, hexec', if_pos h, hs]
    exact ⟨rfl, rfl⟩
  · rw [hexec', if_neg h]

/-! ## The Storm Monitor -/

/-- A source is suppressed: its count is held at the threshold, and it leaves the Armed set (R108). -/
def State.stormSuppressed (s : State) (src : Source) : State := s.withWake { s.wake with
  suppressed := setBit s.wake.suppressed src, armed := clearBit s.wake.armed src,
  stormCount := s.wake.stormCount.set src s.wake.threshold }

/-- A latch event of a source is counted (R107). -/
def State.stormCounted (s : State) (src : Source) : State := s.withWake { s.wake with
  stormCount := s.wake.stormCount.set src (s.wake.stormCount[src] + 1) }

section
variable (left : Departed) (hc : s.stormCounts src = true)
include hc

/-- A suppressed source is no armed latch (R108). -/
theorem latchFrom_suppresses (hth : (latchBit src s).wake.threshold ≤ (latchBit src s).wake.stormCount[src] + 1) :
    latchFrom src (s, left) = (queueUp (stormNotice src) ((latchBit src s).stormSuppressed src), left) := by
  have hs : stormStep src (latchBit src s) = queueUp (stormNotice src) ((latchBit src s).stormSuppressed src) := by
    unfold stormStep
    rw [latchBit_stormCounts, if_pos hc, if_pos hth]
    rfl
  show armStep src left (stormStep src (latchBit src s)) = _
  rw [hs]
  refine if_neg ?_
  rw [queueUp_wake]
  show ¬ (clearBit (latchBit src s).wake.armed src).getLsbD src.val = true
  rw [clearBit_getLsbD]
  simp

theorem latchFrom_counts (hth : (latchBit src s).wake.stormCount[src] + 1 < (latchBit src s).wake.threshold)
    (ha : s.wake.armed.getLsbD src.val = false) : latchFrom src (s, left) = ((latchBit src s).stormCounted src, left) := by
  have hs : stormStep src (latchBit src s) = (latchBit src s).stormCounted src := by
    unfold stormStep
    rw [latchBit_stormCounts, if_pos hc, if_neg (Nat.not_le.2 hth)]
    rfl
  show armStep src left (stormStep src (latchBit src s)) = _
  rw [hs]
  refine if_neg ?_
  show ¬ (latchBit src s).wake.armed.getLsbD src.val = true
  rw [latchBit_armed, ha]
  decide

end

/-- EVENT SOURCE stands in the own-frame queue after a latch event that sets its bit, while the link is UP (R95). -/
theorem latchBit_own (hlat : s.wake.latch.getLsbD src.val = false) (hroom : s.up.own.length < 23) :
    (latchBit src s).up.own =
      if s.dom.linkUp then s.up.own ++ [sourceNotice src (s.wake.generation + 1#16)] else s.up.own := by
  rw [latchBit_of_room src (upRoom_of_short hroom)]
  unfold State.latched
  rw [if_neg (by rw [hlat]; decide)]
  simp only
  split <;> rfl

/-- The notices of one event that latches a source and suppresses it (R95, R108). -/
theorem stormSuppressed_own (hlat : s.wake.latch.getLsbD src.val = false) (hroom : s.up.own.length < 22) :
    (queueUp (stormNotice src) ((latchBit src s).stormSuppressed src)).up.own = if s.dom.linkUp
      then s.up.own ++ [sourceNotice src (s.wake.generation + 1#16), stormNotice src] else s.up.own := by
  have hown := latchBit_own hlat (Nat.lt_succ_of_lt hroom)
  have hlink : ((latchBit src s).stormSuppressed src).dom.linkUp = s.dom.linkUp := congrArg DomainTable.linkUp (latchBit_dom src s)
  by_cases hl : s.dom.linkUp = true
  · rw [if_pos hl] at hown ⊢
    have hlen : (latchBit src s).up.own.length < 23 := by
      rw [hown, List.length_append]
      exact Nat.succ_lt_succ hroom
    rw [queueUp_of_up _ (hlink.trans hl) (upRoom_of_lt (s := latchBit src s) hlen rfl)]
    show (latchBit src s).up.own ++ [stormNotice src] = _
    rw [hown, List.append_assoc]
    rfl
  · rw [if_neg hl] at hown ⊢
    rw [queueUp_of_down _ (hlink.trans (Bool.not_eq_true _ ▸ hl))]
    exact hown

/-- Settles O50. -/
theorem stormsAreCountedAndSuppressed : Obligations.StormsAreCountedAndSuppressed := by
  intro s
  refine ⟨fun h => ?_, fun k high src hsrc hlev hmode hr hwin hen hsup hload hlat hroom => ?_⟩
  · have hexec : exec .stormWindowExpiry s = .next (s.withWake { s.wake with
        stormCount := s.wake.clearedCounts, windowTimer := startTimer (ticks s.wake.window) }) :=
      congrArg Host.Outcome.next (if_pos h)
    exact ⟨_, hexec, rfl, rfl, fun src => clearedCounts_get _ _, rfl⟩
  · obtain rfl := eq_lineSource hsrc
    let w := writeLineLevel k high s
    let v := latchBit (lineSource k) w
    have hexec := exec_lineFilteredChange_latch hlev (names_of (high := high) (.inl hmode))
    have hwake : v.wake = { s.wake with
        latch := setBit s.wake.latch (lineSource k), generation := s.wake.generation + 1#16 } := latchBit_clear (s := w) hlat
    have hdom : v.dom = s.dom := latchBit_dom _ w
    have heng : v.eng = s.eng := latchBit_eng _ w
    have hmon : v.mon = s.mon := latchBit_mon _ w
    have hcounts : w.stormCounts (lineSource k) = true := by
      have hne : lineSource k ≠ 0 := fun h => by simpa [lineSource] using congrArg Fin.val h
      simp only [State.stormCounts, State.stormEnabled, State.isLoading, hasBit]
      rw [show w.wake = s.wake from rfl, show w.ldr = s.ldr from rfl, hen, hsup, hload]
      simp [hwin, hne]
    refine ⟨fun hth => ?_, fun hth ha => ?_⟩
    · let x := v.stormSuppressed (lineSource k)
      have hxdom : (queueUp (stormNotice (lineSource k)) x).dom = s.dom := (queueUp_dom _ x).trans hdom
      have hrails : (queueUp (stormNotice (lineSource k)) x).RailsGood :=
        hr.congr (congrArg DomainTable.config hxdom) ((queueUp_mon x _).trans hmon)
      rw [latchFrom_suppresses (s := w) _ hcounts (by show v.wake.threshold ≤ v.wake.stormCount[lineSource k] + 1; rw [hwake]; exact hth),
        endEvent_start_of_railsGood hrails] at hexec
      refine ⟨_, hexec, ?_, stormSuppressed_own (s := w) hlat hroom, (queueUp_eng x _).trans heng, hxdom⟩
      rw [show (queueUp (stormNotice (lineSource k)) x).wake = x.wake from queueUp_wake x _]
      show (v.stormSuppressed (lineSource k)).wake = _
      unfold State.stormSuppressed
      rw [hwake]
      rfl
    · have hrails : (v.stormCounted (lineSource k)).RailsGood := hr.congr (congrArg DomainTable.config hdom) hmon
      rw [latchFrom_counts (s := w) _ hcounts (by show v.wake.stormCount[lineSource k] + 1 < v.wake.threshold; rw [hwake]; exact hth) ha,
        endEvent_start_of_railsGood hrails] at hexec
      refine ⟨_, hexec, ?_, heng, hdom⟩
      show (v.stormCounted (lineSource k)).wake = _
      unfold State.stormCounted
      rw [hwake]
      rfl

end Sys2Proof.Machine
end

section
/-! SUPPORT. The power button: presses, releases, the press timer and the override timer (R78 to R82, R116 to R119). The statements
O47 and O48 are settled here. -/

namespace Sys2Proof.Machine

variable {s : State}

/-! ## Presses and releases -/

theorem pressLatch_first (h : s.qual.button.latched = false) :
    pressLatch s = latchEvent 0 (s.withButton { s.qual.button with latched := true }) := if_neg (by rw [h]; decide)

theorem pressLatch_again (h : s.qual.button.latched = true) : pressLatch s = (s, .start s) := if_pos h

/-- The press latches source 0, which no Storm Monitor counts and here is not armed (R117). -/
theorem endEvent_pressLatch (h : s.qual.button.latched = false) (hr : s.RailsGood) (ha : s.wake.armed.getLsbD 0 = false)
    (hroom : s.up.own.length < 23) :
    endEvent (pressLatch s) = (s.withButton { s.qual.button with latched := true }).latched 0 := by
  let t := s.withButton { s.qual.button with latched := true }
  rw [pressLatch_first h, latchEvent_eq, latchFrom_of_not_armed (s := t) (src := 0) _ (stormCounts_of_source_zero t)
    (upRoom_of_short (s := t) hroom) ha]
  exact endEvent_start_of_railsGood (latched_rails (s := t) 0 hr)

/-- A press with both timers running (R117, R118). -/
def State.pressed (s : State) : State := s.withButton { s.qual.button with
  state := ⟨true, 0⟩, latched := false, overridden := false,
  pressTimer := startTimer (ticks s.qual.button.pressMinimum), overrideTimer := startTimer (ticks s.qual.button.override) }

theorem exec_buttonPress (h : s.qual.button.state.level = false) : exec .buttonPress s =
    .next (endEvent (if ticks s.qual.button.pressMinimum = 0 then pressLatch s.pressed else (s.pressed, .start s.pressed))) :=
  congrArg Host.Outcome.next (if_neg (by rw [h]; decide))

theorem exec_pressTimerExpiry (h : s.qual.button.pressExpires = true) : exec .pressTimerExpiry s =
    .next (endEvent (pressLatch (s.withButton { s.qual.button with pressTimer := none }))) :=
  congrArg Host.Outcome.next (if_pos h)

/-- Settles O47. -/
theorem buttonPressesAndReleases : Obligations.ButtonPressesAndReleases := by
  intro s hr
  refine ⟨fun h ht => ?_, fun h => congrArg Host.Outcome.next (if_pos h), fun ha hroom hp hlt hl => ?_, fun n m hn hm hle => ?_,
    fun ha hroom h ht => ?_⟩
  · rw [exec_buttonPress h, if_neg ht, endEvent_start_of_railsGood (t := s.pressed) (hr.congr rfl rfl)]
    unfold State.pressed startTimer
    rw [if_neg ht]
    rfl
  · have hexp : s.qual.button.pressExpires = true := by
      obtain ⟨n, hn⟩ := Option.isSome_iff_exists.1 hp
      unfold Button.pressExpires Button.overrideFirst
      cases hm : s.qual.button.overrideTimer with
      | none => simp [hn]
      | some m => simp [hn, hlt n m hn hm]
    rw [exec_pressTimerExpiry hexp]
    exact congrArg Host.Outcome.next
      (endEvent_pressLatch (s := s.withButton { s.qual.button with pressTimer := none }) hl (hr.congr rfl rfl) ha hroom)
  · have hexp : s.qual.button.pressExpires = false := by
      unfold Button.pressExpires Button.overrideFirst
      simp [hn, hm, hle]
    exact congrArg Host.Outcome.next (if_neg (by rw [hexp]; decide))
  · rw [exec_buttonPress h, if_pos ht, endEvent_pressLatch (s := s.pressed) rfl (hr.congr rfl rfl) ha hroom]
    unfold State.pressed
    rw [show startTimer (ticks s.qual.button.pressMinimum) = none from if_pos ht]
    rfl

/-! ## The override -/

/-- The override timer expires with the button held and the press already latched (R118). -/
theorem exec_overrideTimerExpiry {b : Button} (ht : s.qual.button.overrideTimer.isSome = true)
    (hl : s.qual.button.state.level = true) (hlat : s.qual.button.latched = true)
    (hb : b = { s.qual.button with overridden := true, overrideTimer := none }) :
    exec .overrideTimerExpiry s = .next (endEvent (forcingEvent .override (.start (s.withButton b)) (s.withButton b))) := by
  have hp : overridePress s = forcingEvent .override (.start (s.withButton b)) (s.withButton b) := by
    have hsame : s.withButton { s.qual.button with overridden := true, overrideTimer := none, pressTimer :=
        if s.qual.button.latched then s.qual.button.pressTimer else none } = s.withButton b := by rw [hb, if_pos hlat]
    unfold overridePress
    simp only [hsame]
    rw [pressLatch_again (s := s.withButton b) (by rw [hb]; exact hlat)]
  rw [← hp]
  exact congrArg Host.Outcome.next (if_pos (by rw [ht, hl]; rfl))

/-- The end of FORCED-OFF (R81). -/
theorem forcedOffEnd_eq {cause : ForcingCause} (hc : s.eng.forcingCause = some cause) (hroom : s.up.own.length < 23) :
    forcedOffEnd s = (if s.dom.linkUp
      then ((reachSoftoff s).forcedDone cause).upQueued
        (reportNotice ⟨cause.sequence, .forced, cause.cause, cause.failing, none, s.unknownSet⟩)
      else (reachSoftoff s).forcedDone cause) := by
  have hm := makeReport_of_room (s := reachSoftoff s) ⟨cause.sequence, .forced, cause.cause, cause.failing, none, s.unknownSet⟩ hroom
  unfold forcedOffEnd reportForced forcedReport
  rw [show (reachSoftoff s).eng.forcingCause = some cause from hc]
  show State.withEng (makeReport _ (reachSoftoff s)) { (makeReport _ (reachSoftoff s)).eng with forcingCause := none } = _
  by_cases hl : s.dom.linkUp = true
  · rw [if_pos hl]
    rw [if_pos (show (reachSoftoff s).dom.linkUp = true from hl)] at hm
    exact congrArg (fun t : State => t.withEng { t.eng with forcingCause := none }) hm
  · rw [if_neg hl]
    rw [if_neg (show ¬ (reachSoftoff s).dom.linkUp = true from hl)] at hm
    exact congrArg (fun t : State => t.withEng { t.eng with forcingCause := none }) hm

/-- Settles O48. -/
theorem overrideForcesThePartOff : Obligations.OverrideForcesThePartOff := by
  refine ⟨fun s b ht hl hlat hr hb => ?_, fun s m cause hp hrun ht ha ho hr hc hroom => ?_⟩
  · let w := s.withButton b
    have hexec := exec_overrideTimerExpiry ht hl hlat hb
    have hwr : w.RailsGood := hr.congr rfl rfl
    refine ⟨fun hp => ?_, fun l hp hload hdef => ?_, fun hns hnf hload _ hrun hundo hcount => ?_,
      fun steps rest q d target rev a hns hnf hload _ hrun hundo hcheck hsteps hact hj hagent hown => ?_⟩
    · rw [hexec, forcingEvent_ignored (s := w) _ _ hp, endEvent_start_of_railsGood hwr]
      rfl
    · rw [hexec, forcingEvent_deferred (s := w) _ _ hp hload hdef]
      exact congrArg Host.Outcome.next (endEvent_start_of_railsGood (hwr.congr rfl rfl))
    · rw [forcingEvent_forces (s := w) _ _ hns hnf hload] at hexec
      obtain ⟨u, hu, hf⟩ := endEvent_beginForcing_safe (s := w) (left := .start w)
        (cause := ⟨.override, s.eng.platform.sequence, none⟩) hcount (orderedDomains_nil hrun hundo)
        (by simp [State.linkHeld, show w.ldr.loading = none from hload])
      rw [show w.eng.platform.sequence = s.eng.platform.sequence from rfl, hu] at hexec
      obtain ⟨heng, hoff, hlink, hwake, hqual, hgate, hlines, hown, -, -⟩ := hf
      refine ⟨u, hexec, ?_⟩
      rw [heng, hlines, hlink, hwake, hqual, hgate, hown]
      exact ⟨rfl, rfl, rfl, rfl, rfl, rfl, rfl, rfl, rfl, hoff, rfl, rfl, rfl, rfl, rfl, rfl, rfl, rfl, rfl,
        congrArg (fun q => some (Report.mk q _ _ _ _ _)) (sequence_eq _)⟩
    · rw [forcingEvent_forces (s := w) _ _ hns hnf hload] at hexec
      obtain ⟨t, hbegun, hf⟩ := beginForcing_eq (s := w) (left := .start w)
        (cause := ⟨.override, s.eng.platform.sequence, none⟩) (orderedDomains_nil hrun hundo)
      obtain ⟨heng, hdom, hwake, hqual, hgate, hmon, hlines, hdown, hldr, -, -⟩ := hbegun
      have hstart := startForcedOff_order (t := t) (steps := steps) (rest := rest)
        ((checkSequence_congr (s := s) (t := t) (by rw [heng]; rfl) (by rw [heng]; rfl) (by rw [hdom]; rfl) 6).trans hcheck)
        hsteps hact hj (by show (t.dom.config[d]).agent = some a; rw [hdom]; exact hagent) (by rw [hdown]; exact hown)
      rw [show w.eng.platform.sequence = s.eng.platform.sequence from rfl, hf, hstart] at hexec
      have hrails : t.RailsGood := hwr.congr (by rw [hdom]) hmon
      have hfin := hexec.trans (congrArg Host.Outcome.next (endEvent_start_of_railsGood (hrails.congr rfl rfl)))
      refine ⟨_, hfin, ?_⟩
      show t.qual.button = b ∧ t.eng.platform = .forcing ∧ some (Plan.mk (q :: rest) 1 (t.dirEntry 6).commit) = _ ∧
        t.eng.rising = _ ∧ t.eng.orders ++ [⟨d, a, t.eng.tag, target, some q.position⟩] = _ ∧ t.eng.tag + 1#4 = _ ∧
        t.eng.undoStack = _ ∧ t.eng.abortPending = _ ∧ t.eng.lastReport = _ ∧ t.eng.forcingCause = _ ∧
        { t.down with own := t.down.own ++ [orderFrame a t.eng.tag target] } = _ ∧ t.wake.arm = _ ∧ t.wake.armed = _ ∧
        t.wake.latch = _ ∧ t.gate.permit = _ ∧ t.gate.hold = _ ∧ t.dom = _ ∧ t.lines = _
      unfold State.dirEntry
      rw [heng, hdom, hwake, hqual, hgate, hlines, hdown]
      exact ⟨rfl, rfl, rfl, rfl, rfl, rfl, rfl, rfl, rfl, rfl, rfl, rfl, rfl, rfl, rfl, rfl, rfl, rfl⟩
  · have hexec := exec_delayExpiry_last hrun ha ho ht
    have hab : s.abortsAtGroupEnd = false := by simp [State.abortsAtGroupEnd, hp, Platform.isEntering]
    have hsettle : settle ⟨s.withRunning [], .start s, .completed⟩ = (forcedOffEnd (s.withRunning []), .start s) := by
      unfold settle
      simp only [show (s.withRunning []).eng.platform = .forcing from hp]
    rw [if_neg (by rw [hab]; decide), hsettle, forcedOffEnd_eq (s := s.withRunning []) hc hroom] at hexec
    by_cases hl : s.dom.linkUp = true
    · rw [if_pos (show (s.withRunning []).dom.linkUp = true from hl)] at hexec
      have hfin := hexec.trans (congrArg Host.Outcome.next (endEvent_start_of_railsGood (hr.congr rfl rfl)))
      exact ⟨_, s.unknownSet, hfin, rfl, rfl, rfl, rfl, rfl, rfl, rfl, rfl, rfl, rfl, unknownSet_getLsbD s, rfl,
        (if_pos hl).symm⟩
    · rw [if_neg (show ¬ (s.withRunning []).dom.linkUp = true from hl)] at hexec
      have hfin := hexec.trans (congrArg Host.Outcome.next (endEvent_start_of_railsGood (hr.congr rfl rfl)))
      exact ⟨_, s.unknownSet, hfin, rfl, rfl, rfl, rfl, rfl, rfl, rfl, rfl, rfl, rfl, unknownSet_getLsbD s, rfl,
        (if_neg hl).symm⟩

end Sys2Proof.Machine
end

section
/-! SUPPORT. How an image is judged, the emptied tables, and the end of a loading (R171, R175, R179, R180). The statement O51 is
settled here. -/

namespace Sys2Proof.Machine

variable {s : State} {l : Loading}

/-! ## The end of a loading -/

theorem endService_up {tag : Tag} (code : ResultCode) (hs : s.mgmt.serving = some tag) (hl : s.dom.linkUp = true)
    (hroom : s.up.own.length < 24) : endService code s =
      (s.withUp { s.up with own := s.up.own ++ [resultFrame tag code []] }).withMgmt { s.mgmt with serving := none } := by
  have hq : queueResult (resultFrame tag code []) s = s.withUp { s.up with own := s.up.own ++ [resultFrame tag code []] } :=
    (if_pos hl).trans (if_pos hroom)
  unfold endService
  simp only [hs, hq]
  rfl

theorem endService_down (code : ResultCode) (hl : s.dom.linkUp = false) :
    endService code s = s.withMgmt { s.mgmt with serving := none } := by
  have hq (f : Frame) : queueResult f s = s := if_neg (by rw [hl]; decide)
  unfold endService
  cases hs : s.mgmt.serving with
  | none => rfl
  | some tag => simp only [hq]

theorem linkRight_of_decide (hload : s.ldr.loading = none) (h : s.dom.linkUp = decide (s.recorded s.dom.controller = .on)) :
    s.LinkRight := by
  unfold State.LinkRight State.linkHeld
  simp [hload, h]

/-- A REINIT's loading ends with no event deferred (R180). -/
theorem endAsReinit_quiet (code : ResultCode) (left : Departed) (hd : l.deferred = none) :
    endAsReinit l code left s = (endService code (recomputeLink (s.withLoading none)), left) := by
  unfold endAsReinit takeDeferred
  rw [hd]

/-! ## Judging the image -/

/-- The first five bytes announce no image (R175). -/
theorem headerGood_of_bad {b0 b1 b2 b3 b4 : Byte}
    (h : b0 ≠ 0xD5#8 ∨ b1 ≠ 0x1E#8 ∨ b2 ≠ 0x01#8 ∨ (b3 ++ b4).toNat = 0 ∨ 4095 < (b3 ++ b4).toNat) :
    headerGood b0 b1 b2 b3 b4 = false := by
  unfold headerGood unitCount word16
  refine decide_eq_false fun ⟨h0, h1, h2, h3, h4⟩ => ?_
  obtain h | h | h | h | h := h
  · exact h h0
  · exact h h1
  · exact h h2
  · omega
  · omega

section
variable (hload : s.ldr.loading = some l)
include hload

theorem exec_header_good {b3 b4 : Byte} (hp : l.phase = .header) (h1 : 1 ≤ (b3 ++ b4).toNat) (h2 : (b3 ++ b4).toNat ≤ 4095) :
    exec (.imageHeaderRead 0xD5#8 0x1E#8 0x01#8 b3 b4) s =
      .next (s.withLoading (some { l with phase := .body [0xD5#8, 0x1E#8, 0x01#8, b3, b4] })) := by
  have hg : headerGood 0xD5#8 0x1E#8 0x01#8 b3 b4 = true := decide_eq_true ⟨rfl, rfl, rfl, h1, h2⟩
  show execImageHeaderRead _ _ _ b3 b4 s = _
  simp only [execImageHeaderRead, hload, hp, hg, if_true]

theorem exec_header_bad {b0 b1 b2 b3 b4 : Byte} (hp : l.phase = .header)
    (h : b0 ≠ 0xD5#8 ∨ b1 ≠ 0x1E#8 ∨ b2 ≠ 0x01#8 ∨ (b3 ++ b4).toNat = 0 ∨ 4095 < (b3 ++ b4).toNat) :
    exec (.imageHeaderRead b0 b1 b2 b3 b4) s = .next (imageUnusable l .fallbackNoImage s) := by
  have hg := headerGood_of_bad h
  show execImageHeaderRead b0 b1 b2 b3 b4 s = _
  simp only [execImageHeaderRead, hload, hp, hg, Bool.false_eq_true, if_false]

section
variable {b3 b4 : Byte} {area : List Byte} {crc : BitVec 16} (hp : l.phase = .body [0xD5#8, 0x1E#8, 0x01#8, b3, b4])
  (hlen : area.length + 7 = ((b3 ++ b4).toNat + 1) * 4)
include hp hlen

/-- With the whole image read, its CRC decides (R175). -/
theorem exec_imageReadComplete : exec (.imageReadComplete (area ++ bytes16 crc)) s = .next
    (if crc = crc16 ([0xD5#8, 0x1E#8, 0x01#8, b3, b4] ++ area)
      then (if l.byReinit then acceptReinit s else s).withLoading (some { l with phase := .records area })
      else imageUnusable l .fallbackCrc s) := by
  have hn : (area ++ bytes16 crc).length - 2 = area.length := by simp [bytes16]
  have harea : recordArea (area ++ bytes16 crc) = area := by
    unfold recordArea
    rw [hn, List.take_left]
  have hgood : imageCrcGood [0xD5#8, 0x1E#8, 0x01#8, b3, b4] (area ++ bytes16 crc) =
      decide (crc = crc16 ([0xD5#8, 0x1E#8, 0x01#8, b3, b4] ++ area)) := by
    unfold imageCrcGood
    rw [harea, hn, List.drop_left, decide_eq_decide]
    refine ⟨fun h => ?_, fun h => by rw [h]⟩
    rw [← word16_bytes16 crc, ← word16_bytes16 (crc16 _)]
    obtain ⟨h1, h2⟩ := List.cons.inj h
    rw [h1, (List.cons.inj h2).1]
  have hfull : ¬ [0xD5#8, 0x1E#8, 0x01#8, b3, b4].length + (area ++ bytes16 crc).length ≠
      imageLength [0xD5#8, 0x1E#8, 0x01#8, b3, b4] := by
    simp only [imageLength, unitCount, word16, List.length_append, bytes16, List.length_cons, List.length_nil]
    omega
  show execImageReadComplete _ s = _
  simp only [execImageReadComplete, hload, hp, if_neg hfull, harea, hgood, decide_eq_true_eq]

end

end

/-! ## The emptied tables -/

/-- The state with its tables and settings emptied, before the link is computed again (R174). -/
def State.emptied (s : State) : State := { s with
  eng := { s.eng with directory := Vector.replicate 7 DirEntry.empty, store := Vector.replicate 128 StepRecord.empty },
  dom := { s.dom with
    config := Vector.replicate 12 DomainConfig.empty, controller := 0, agentMap := Vector.replicate 62 none },
  matcher := ⟨Vector.replicate 24 MatchEntry.empty⟩,
  wake := { s.wake with
    enable := 1#16, maskStandby := 0#16, maskHibernate := 0#16, maskSoftoff := 0#16, threshold := 1, window := 0x00#8,
    windowTimer := none },
  qual := { s.qual with
    lines := Vector.ofFn fun k => s.qual.lines[k].emptied,
    button := { s.qual.button with pressMinimum := 0x49#8, override := 0xE8#8 }, afterLoss := .stayOff },
  lines := { s.lines with safe := 0#16 } }

theorem emptyTables_eq (s : State) : emptyTables s = recomputeLink s.emptied := rfl

theorem recomputeLink_of_held (h : s.linkHeld = true) : recomputeLink s = s := if_pos h

/-- With the permit clear the link, what waits on it and DISCARDED alone can change (R19, R20, R146). -/
theorem recomputeLink_shape (h : s.gate.permit = false) : ∃ link up counters,
    recomputeLink s = { s with
      dom := { s.dom with linkUp := link }, up := up, mgmt := { s.mgmt with counters := counters } } ∧
    (s.linkHeld = true → link = s.dom.linkUp ∧ counters = s.mgmt.counters) := by
  by_cases hh : s.linkHeld = true
  · exact ⟨s.dom.linkUp, s.up, s.mgmt.counters, recomputeLink_of_held hh, fun _ => ⟨rfl, rfl⟩⟩
  · have hup : linkUp s = s.withLink true := by
      unfold linkUp markUp
      rw [show (s.withLink true).gate.permit = false from h]
      rfl
    unfold recomputeLink
    rw [if_neg hh, hup]
    (repeat' split) <;> exact ⟨_, _, _, rfl, fun hx => absurd hx hh⟩

/-- What the acceptance of a REINIT clears (R171). -/
def State.reinitCleared (s : State) : State := { s with
  gate := ⟨[], false⟩, mgmt := { s.mgmt with counters := ⟨0, 0, 0, 0, 0, 0⟩ },
  wake := { s.wake with latch := 0#16, suppressed := 0#16, stormCount := Vector.replicate 16 0 },
  eng := { s.eng with lastReport := none } }

theorem acceptReinit_eq (s : State) : acceptReinit s = recomputeLink s.reinitCleared.emptied := rfl

theorem replicate_get {α : Type} {n : Nat} (a : α) (i : Fin n) : (Vector.replicate n a)[i] = a := by simp

/-- A REINIT's image fails a check, with no event deferred (R180). -/
theorem imageUnusable_reinit {tag : Tag} (status : LoaderStatus) (hby : l.byReinit = true)
    (hlost : l.mainsLost = false) (hdef : l.deferred = none) (hserv : s.mgmt.serving = some tag) (hr : s.RailsGood)
    (hlink : s.dom.linkUp = decide (s.recorded s.dom.controller = .on)) (hl : s.dom.linkUp = true) (hroom : s.up.own.length < 24) :
    imageUnusable l status s = { s with
      ldr := { s.ldr with loading := none }, mgmt := { s.mgmt with serving := none },
      up := { s.up with own := s.up.own ++ [⟨0#6, 63#6, .result, tag, false, [9#8]⟩] } } := by
  have hright : recomputeLink (s.withLoading none) = s.withLoading none :=
    recomputeLink_of_linkRight (linkRight_of_decide rfl hlink)
  unfold imageUnusable failReinit
  rw [if_pos hby, if_neg (by rw [hlost]; decide), endAsReinit_quiet _ _ hdef, hright,
    endService_up (s := s.withLoading none) _ hserv hl hroom]
  exact endEvent_start_of_railsGood (hr.congr rfl rfl)

/-- Settles O51. -/
theorem theImageIsJudged : Obligations.TheImageIsJudged := by
  intro s l hload
  refine ⟨fun b3 b4 hp h1 h2 => exec_header_good hload hp h1 h2, fun b3 b4 area hp hlen => ⟨fun hby => ?_, fun hby => ?_⟩,
    fun c tag hby hlost hdef hserv hr hlinkEq hl hroom hcase => ?_⟩
  · rw [exec_imageReadComplete hload hp hlen, if_pos rfl, if_neg (by rw [hby]; decide)]
    rfl
  · have hexec := exec_imageReadComplete (crc := crc16 ([0xD5#8, 0x1E#8, 0x01#8, b3, b4] ++ area)) hload hp hlen
    rw [if_pos rfl, if_pos hby, acceptReinit_eq] at hexec
    obtain ⟨link, up, counters, hshape, hheld⟩ := recomputeLink_shape (s := s.reinitCleared.emptied) rfl
    rw [hshape] at hexec
    have hsame (h : l.mainsLost = false) : link = s.dom.linkUp ∧ counters = ⟨0, 0, 0, 0, 0, 0⟩ := hheld (by
      show s.linkHeld = true
      simp [State.linkHeld, hload, hby, h])
    refine ⟨_, hexec, rfl, fun i => ?_, fun k => ?_, fun d => ?_, rfl, rfl, fun i => ?_, fun i => ?_, rfl, rfl, rfl, rfl, rfl, rfl,
      rfl, fun src => ?_, rfl, rfl, rfl, rfl, fun k => ?_, rfl, fun h => (hsame h).symm, rfl, rfl, rfl, rfl, rfl, rfl, rfl, rfl⟩
    · exact replicate_get _ i
    · exact replicate_get _ k
    · exact replicate_get _ d
    · exact replicate_get _ i
    · exact replicate_get _ i
    · exact replicate_get _ src
    · have hk : (Vector.ofFn fun k : WakeLine => s.qual.lines[k].emptied)[k] = s.qual.lines[k].emptied := by simp
      exact ⟨congrArg LineQualifier.mode hk, congrArg LineQualifier.filter hk, (congrArg LineQualifier.level hk).trans rfl⟩
  · have hbad (status : LoaderStatus) := imageUnusable_reinit status hby hlost hdef hserv hr hlinkEq hl hroom
    obtain ⟨b0, b1, b2, b3, b4, hp, rfl, h⟩ | ⟨b3, b4, area, crc, hp, hlen, hcrc, rfl⟩ := hcase
    · rw [exec_header_bad hload hp h, hbad]
    · rw [exec_imageReadComplete hload hp hlen, if_neg hcrc, hbad]

end Sys2Proof.Machine
end

section
/-! SUPPORT. The records of an image, applied as SETs, and the loading that ends with the last byte (R176 to R180). The statement O52
is settled here. -/

namespace Sys2Proof.Machine

variable {s : State} {l : Loading}

/-! ## The next record of the area -/

theorem skipPadding_zeros (n : Nat) (area : List Byte) : skipPadding (List.replicate n 0#8 ++ area) = skipPadding area := by
  induction n with
  | zero => rfl
  | succ n ih => exact (if_pos rfl).trans ih

theorem skipPadding_of_ne {b : Byte} (rest : List Byte) (h : b ≠ 0#8) : skipPadding (b :: rest) = b :: rest := if_neg h

theorem exec_loaderRecordApply {area : List Byte} (hload : s.ldr.loading = some l) (hp : l.phase = .records area) :
    exec .loaderRecordApply s = .next (applyRecord l area s) := by
  show execLoaderRecordApply s = _
  simp only [execLoaderRecordApply, hload, hp]

/-- A record behind padding zeros that the SET rules take (R176). -/
theorem applyRecord_taken {zeros : Nat} {len : Byte} {body after : List Byte} {w : SetWrite} (hne : len ≠ 0#8) (hlen : len.toNat ≤ 32)
    (hbody : body.length = len.toNat) (hcheck : recordCheck s body = .ok w) :
    applyRecord l (List.replicate zeros 0#8 ++ len :: (body ++ after)) s =
      if after.isEmpty then endLoading l .loaded (applyWrite w (s.withLoading (some { l with phase := .records after })))
      else writeAndTest w (s.withLoading (some { l with phase := .records after })) := by
  have hnext : nextRecord len (body ++ after) = some (body, after) := by
    unfold nextRecord
    rw [if_pos ⟨hlen, by rw [List.length_append]; omega⟩, ← hbody, List.take_left, List.drop_left]
  unfold applyRecord
  rw [skipPadding_zeros, skipPadding_of_ne _ hne]
  simp only [hnext, hcheck]

theorem recordCheck_safeLevels (s : State) (x : Levels) : recordCheck s (0x0E#8 :: bytes16 x) = .ok (.safeLevels x) :=
  congrArg (fun y => Except.ok (SetWrite.safeLevels y)) (word16_bytes16 x)

theorem recordCheck_button (s : State) (p o : Byte) :
    recordCheck s [0x0C#8, p, o, 0#8] = .ok (.buttonSettings p o .stayOff) := rfl

/-- A record of the safe levels behind padding zeros (R83, R176). -/
theorem applyRecord_safeLevels (zeros : Nat) (x : Levels) (after : List Byte) :
    applyRecord l (List.replicate zeros 0#8 ++ 3#8 :: 0x0E#8 :: bytes16 x ++ after) s =
      (fun t : State => if after.isEmpty then endLoading l .loaded (t.withLines { t.lines with safe := x }, .start t)
        else t.withLines { t.lines with safe := x }) (s.withLoading (some { l with phase := .records after })) := by
  have h := applyRecord_taken (s := s) (l := l) (zeros := zeros) (len := 3#8) (after := after) (by decide) (by decide) rfl
    (recordCheck_safeLevels s x)
  rw [List.append_assoc, List.cons_append, h]
  cases after <;> rfl

/-- The state in which the last record of an area, of the safe levels, has been applied. -/
def State.lastRecordApplied (s : State) (l : Loading) (x : Levels) : State :=
  (s.withLoading (some { l with phase := .records [] })).withLines { s.lines with safe := x }

theorem exec_lastRecord {zeros : Nat} {x : Levels} (hload : s.ldr.loading = some l)
    (hp : l.phase = .records (List.replicate zeros 0#8 ++ 3#8 :: 0x0E#8 :: bytes16 x)) :
    exec .loaderRecordApply s =
      .next (endLoading l .loaded (s.lastRecordApplied l x, .start (s.withLoading (some { l with phase := .records [] })))) := by
  have happly := applyRecord_safeLevels (s := s) (l := l) zeros x []
  rw [List.append_nil] at happly
  rw [exec_loaderRecordApply hload hp, happly]
  rfl

/-! ## The end of a loading with its last byte -/

/-- A power-on loading ends under STAY-OFF, the link as it was (R179). -/
theorem endLoading_powerOn {left : Departed} (status : LoaderStatus) (hby : l.byReinit = false)
    (hlink : s.dom.linkUp = decide (s.recorded s.dom.controller = .on)) (hal : s.qual.afterLoss = .stayOff) :
    endLoading l status (s, left) = endEvent ({ s with
      ldr := ⟨none, status⟩, mgmt := { s.mgmt with serving := none },
      wake := { s.wake with armed := s.armedFor .softoff, windowTimer := startTimer (ticks s.wake.window) } }, left) := by
  let t := (startWindow (computeArmed .softoff (s.withStatusCode status))).withLoading none
  have hlinked : recomputeLink t = t := recomputeLink_of_linkRight (linkRight_of_decide (s := t) rfl hlink)
  have hend : endAsPowerOn left (s.withStatusCode status) = (t.withMgmt { t.mgmt with serving := none }, left) := by
    show applyAfterLoss left (State.withMgmt (recomputeLink t) { (recomputeLink t).mgmt with serving := none }) = _
    rw [hlinked]
    exact if_neg fun ⟨_, hon, _⟩ => absurd (hal.symm.trans hon) (by decide)
  unfold endLoading
  simp only [hby, Bool.false_and, Bool.false_eq_true, if_false]
  rw [hend]
  rfl

/-- A REINIT's loading ends without a mains loss (R180). -/
theorem endLoading_reinit {left : Departed} (status : LoaderStatus) (hby : l.byReinit = true) (hlost : l.mainsLost = false) :
    endLoading l status (s, left) = endEvent (endAsReinit l .ok left (startWindow (s.withStatusCode status))) := by
  unfold endLoading
  simp only [hby, hlost, Bool.not_false, Bool.and_self, if_true]

/-- The state in which a REINIT's loading has ended, but for its RESULT (R180). -/
def State.reinitEnded (s : State) (status : LoaderStatus) : State := { s with
  ldr := ⟨none, status⟩, wake := { s.wake with windowTimer := startTimer (ticks s.wake.window) } }

theorem reinitEnded_eq (s : State) (status : LoaderStatus) :
    (startWindow (s.withStatusCode status)).withLoading none = s.reinitEnded status := rfl

/-- An event deferred to the end of a REINIT's loading takes the link DOWN, so that no RESULT is sent (R11, R180). -/
theorem endAsReinit_forced {w u t : State} {cause : ReportCause} (code : ResultCode) (left : Departed)
    (hdef : l.deferred = some cause) (hw : recomputeLink (s.withLoading none) = w)
    (hf : forcingEvent cause left w = (u, .start t)) (hl : u.dom.linkUp = false) :
    endAsReinit l code left s = (u.withMgmt { u.mgmt with serving := none }, .start t) := by
  unfold endAsReinit takeDeferred
  rw [hdef, hw]
  simp only [hf, endService_down code hl]

/-- Settles O52. -/
theorem loaderRecordsAreApplied : Obligations.LoaderRecordsAreApplied := by
  intro s l zeros hload
  refine ⟨fun x b rest hp => ?_, fun p o b rest hp => ?_, fun x hp hby hal hr hlink => ?_,
    fun x tag hp hby hlost hserv hr hon hl => ?_⟩
  · rw [exec_loaderRecordApply hload hp, applyRecord_safeLevels]
    rfl
  · have h := applyRecord_taken (s := s) (l := l) (zeros := zeros) (len := 4#8) (after := b :: rest) (by decide) (by decide) rfl
      (recordCheck_button s p o)
    rw [List.append_assoc, List.cons_append] at hp
    rw [exec_loaderRecordApply hload hp, h]
    rfl
  · rw [exec_lastRecord hload hp, endLoading_powerOn (s := s.lastRecordApplied l x) .loaded hby hlink hal]
    exact congrArg Host.Outcome.next (endEvent_start_of_railsGood (hr.congr rfl rfl))
  · let w := (s.lastRecordApplied l x).reinitEnded .loaded
    have hlinked : recomputeLink w = w := recomputeLink_of_linkRight (linkRight_of_decide (s := w) rfl (by
      show s.dom.linkUp = decide (s.recorded s.dom.controller = .on)
      rw [hl, hon]
      rfl))
    have hexec := exec_lastRecord hload hp
    rw [endLoading_reinit .loaded hby hlost] at hexec
    refine ⟨fun hdef hroom => ?_, fun hdef hpl hrun hundo hcount => ?_⟩
    · rw [hexec, endAsReinit_quiet _ _ hdef, reinitEnded_eq, hlinked, endService_up (s := w) _ hserv hl hroom]
      exact congrArg Host.Outcome.next (endEvent_start_of_railsGood (hr.congr rfl rfl))
    · obtain ⟨u, t, hf, hu⟩ := beginForcing_safe (s := w) (left := .start (s.withLoading (some { l with phase := .records [] })))
        (cause := ⟨.override, none, none⟩) hcount
        (orderedDomains_nil (fun m hm => by rw [show w.eng.running = [] from hrun] at hm; exact absurd hm List.not_mem_nil) hundo) rfl
      have hplw : w.eng.platform = .working := hpl
      have hforce := forcingEvent_forces (s := w) .override (.start (s.withLoading (some { l with phase := .records [] })))
        (by rw [hplw]; decide) (by rw [hplw]; decide) rfl
      rw [show w.eng.platform.sequence = none by rw [hplw]; rfl, hf] at hforce
      have hend := endAsReinit_forced (s := startWindow ((s.lastRecordApplied l x).withStatusCode .loaded)) .ok _ hdef hlinked hforce
        hu.link
      have hnone (d : Domain) : (u.withMgmt { u.mgmt with serving := none }).railFaulty d = false := hu.railFaulty d
      have hfin := endEvent_start_of_unfaulty t hnone
      rw [hend, hfin] at hexec
      obtain ⟨heng, hoff, hlink, hwake, -, -, hlines, hown, hldr, -⟩ := hu
      refine ⟨_, hexec, hldr, rfl, ?_⟩
      show u.eng.platform = _ ∧ u.lines = _ ∧ s.AllOffAfter u ∧ u.dom.linkUp = false ∧ u.up.own = [] ∧ u.wake.arm = true ∧
        u.wake.armed = s.armedFor .softoff ∧ u.eng.lastReport = _
      rw [heng, hlines, hlink, hwake, hown]
      exact ⟨rfl, rfl, hoff, rfl, if_pos hl, rfl, rfl, rfl⟩

end Sys2Proof.Machine
end

section
/-! SUPPORT. The fallback tables, and the loadings that end with them (R177 to R180). The statement O53 is settled here. -/

namespace Sys2Proof.Machine

variable {s : State} {l : Loading}

/-! ## The fallback tables -/

/-- The Step Store of the fallback tables (R178). -/
def fallbackStore : Vector StepRecord 128 := writeFrom (Vector.replicate 128 StepRecord.empty) 0 fallbackSteps

/-- The Sequence Directory of the fallback tables (R178). -/
def fallbackDirectory : Vector DirEntry 7 := writeFrom (Vector.replicate 7 DirEntry.empty) 5 [⟨0, 4, 0⟩, ⟨4, 2, 0⟩]

/-- The domain configuration of the fallback tables (R178). -/
def fallbackConfig : Vector DomainConfig 12 := (Vector.replicate 12 DomainConfig.empty).set 0 fallbackDomain

theorem fallbackStore_get? (i : Nat) (hi : i < 128) :
    fallbackStore[i]? = if i < 6 then fallbackSteps[i]? else some StepRecord.empty := by
  have hr : (Vector.replicate 128 StepRecord.empty)[i]? = some StepRecord.empty := by simp [hi]
  refine (writeFrom_getElem? (Vector.replicate 128 StepRecord.empty) 0 fallbackSteps i hi).trans ?_
  rw [hr]
  simp only [Nat.zero_le, true_and, Nat.zero_add, Nat.sub_zero, show fallbackSteps.length = 6 from rfl]

theorem fallbackStore_of_step {i : Nat} {r : StepRecord} (h : i < 6) (hr : fallbackSteps[i]? = some r) :
    fallbackStore[i]'(Nat.lt_trans h (by decide)) = r := by
  have hg := fallbackStore_get? i (Nat.lt_trans h (by decide))
  rw [if_pos h, hr, Vector.getElem?_eq_getElem (Nat.lt_trans h (by decide))] at hg
  exact Option.some.inj hg

theorem fallbackStore_rest (i : Fin 128) (h : 6 ≤ i.val) : fallbackStore[i] = StepRecord.empty := by
  have hg := fallbackStore_get? i i.isLt
  rw [if_neg (Nat.not_lt.2 h), Vector.getElem?_eq_getElem i.isLt] at hg
  exact Option.some.inj hg

theorem fallbackDirectory_five : fallbackDirectory[5] = ⟨0, 4, 0⟩ := rfl
theorem fallbackDirectory_six : fallbackDirectory[6] = ⟨4, 2, 0⟩ := rfl

theorem fallbackDirectory_below (k : Fin 7) (h : k.val < 5) : fallbackDirectory[k] = DirEntry.empty := by
  revert k
  decide

theorem fallbackConfig_zero : fallbackConfig[0] = fallbackDomain := rfl

theorem fallbackConfig_other (d : Domain) (h : d ≠ 0) : fallbackConfig[d] = DomainConfig.empty := by
  refine (vector_getElem_set (Vector.replicate 12 DomainConfig.empty) 0 d fallbackDomain).trans ?_
  rw [if_neg h, replicate_get]

/-- The state with the fallback tables over emptied ones, before the link is computed again (R178). -/
def State.fallenBack (s : State) : State := { s.emptied with
  dom := { s.emptied.dom with config := fallbackConfig },
  eng := { s.emptied.eng with store := fallbackStore, directory := fallbackDirectory } }

theorem fallbackTables_eq (h : recomputeLink s.emptied = s.emptied) : fallbackTables s = s.fallenBack := by
  unfold fallbackTables
  rw [emptyTables_eq, h]
  rfl

/-- The fallback rails are good where PG0 is ASSERTED (R178). -/
theorem fallenBack_rails (h : s.pgLevel 0 = true) : s.fallenBack.RailsGood := fun d k hk => by
  replace hk : fallbackConfig[d].pgLine = some k := hk
  by_cases hd : d = 0
  · subst hd
    obtain rfl : 0 = k := Option.some.inj hk
    exact h
  · rw [fallbackConfig_other d hd] at hk
    exact absurd hk (by simp [DomainConfig.empty])

/-! ## Refused records -/

theorem recordCheck_refused {selector : Byte} (rest : List Byte) (h : selector ∈ [0x0D#8, 0x14#8, 0x16#8, 0x04#8, 0x20#8]) :
    recordCheck s (selector :: rest) = .error .badSelect := by
  simp only [List.mem_cons, List.not_mem_nil, or_false] at h
  obtain rfl | rfl | rfl | rfl | rfl := h <;> rfl

/-- A record refused for its length or for its selector brings the fallback tables (R176, R177). -/
theorem applyRecord_refused {len selector : Byte} {rest : List Byte} (h1 : 1 ≤ len.toNat)
    (h : 32 < len.toNat ∨ rest.length + 1 < len.toNat ∨ selector ∈ [0x0D#8, 0x14#8, 0x16#8, 0x04#8, 0x20#8]) :
    applyRecord l (len :: selector :: rest) s = fallBack l .fallbackRecord s := by
  have hne : len ≠ 0#8 := fun h0 => by simp [h0] at h1
  unfold applyRecord
  rw [skipPadding_of_ne _ hne]
  by_cases hfit : len.toNat ≤ 32 ∧ len.toNat ≤ (selector :: rest).length
  · have hsel : selector ∈ [0x0D#8, 0x14#8, 0x16#8, 0x04#8, 0x20#8] := by
      obtain h | h | h := h
      · omega
      · exact absurd hfit.2 (by simp only [List.length_cons]; omega)
      · exact h
    have hnext : nextRecord len (selector :: rest) =
        some (selector :: rest.take (len.toNat - 1), (selector :: rest).drop len.toNat) := by
      unfold nextRecord
      rw [if_pos hfit, List.take_cons h1]
    simp only [hnext, recordCheck_refused _ hsel]
  · have hnext : nextRecord len (selector :: rest) = none := if_neg hfit
    simp only [hnext]

/-! ## The loadings that end with the fallback tables -/

/-- The state after a power-on loading that ended with the fallback tables (R179). -/
def State.poweredFallback (s : State) (status : LoaderStatus) : State := { s.fallenBack with
  ldr := ⟨none, status⟩, mgmt := { s.mgmt with serving := none },
  wake := { s.fallenBack.wake with
    armed := s.fallenBack.armedFor .softoff, windowTimer := startTimer (ticks s.fallenBack.wake.window) } }

/-- A power-on loading ends with the fallback tables, every domain OFF (R179). -/
theorem fallBack_powerOn (status : LoaderStatus) (hload : s.ldr.loading = some l) (hby : l.byReinit = false)
    (hoff : ∀ d, s.recorded d = .off) (hl : s.dom.linkUp = false) :
    fallBack l status s = s.poweredFallback status := by
  have hlink (c : Domain) : s.dom.linkUp = decide (s.recorded c = .on) := by
    rw [hl, hoff c]
    rfl
  have hright : s.emptied.LinkRight := by
    unfold State.LinkRight
    rw [if_neg (by
      rw [show s.emptied.linkHeld = s.linkHeld from rfl, State.linkHeld, hload]
      simp [hby])]
    exact hlink 0
  unfold fallBack
  rw [fallbackTables_eq (recomputeLink_of_linkRight hright), endLoading_powerOn (s := s.fallenBack) status hby (hlink 0) rfl]
  exact endEvent_start_of_unfaulty (u := s.poweredFallback status) s.fallenBack fun d => railFaulty_of_off (hoff d)

/-- The state after a REINIT's loading that ended with the fallback tables, before its RESULT and the link (R180). -/
def State.reinitFallback (s : State) : State := s.fallenBack.reinitEnded .fallbackRecord

/-- A REINIT's loading ends with the fallback tables (R180). -/
theorem fallBack_reinit {u : State} (hload : s.ldr.loading = some l) (hby : l.byReinit = true) (hlost : l.mainsLost = false)
    (hdef : l.deferred = none) (hpg : s.pgLevel 0 = true)
    (hu : endService .ok (recomputeLink s.reinitFallback) = u) (hc : u.dom.config = fallbackConfig) (hm : u.mon = s.mon) :
    fallBack l .fallbackRecord s = u := by
  have hheld : s.emptied.linkHeld = true := by
    show s.linkHeld = true
    simp [State.linkHeld, hload, hby, hlost]
  unfold fallBack
  rw [fallbackTables_eq (recomputeLink_of_held hheld), endLoading_reinit (s := s.fallenBack) _ hby hlost,
    endAsReinit_quiet _ _ hdef, reinitEnded_eq, show s.fallenBack.reinitEnded .fallbackRecord = s.reinitFallback from rfl, hu]
  exact endEvent_start_of_railsGood ((fallenBack_rails hpg).congr hc hm)

theorem reinitFallback_windowTimer (s : State) : s.reinitFallback.wake.windowTimer = none := by
  have hzero : startTimer (ticks 0x00#8) = none := by decide
  show startTimer (ticks s.emptied.wake.window) = none
  exact hzero

/-- Settles O53. -/
theorem fallbackTablesAreInstalled : Obligations.FallbackTablesAreInstalled := by
  refine ⟨fun s l c status hload hby hoff hl hpl hsup hcase => ?_,
    fun s l tag len selector rest hload hby hlost hdef hserv hl hroom hpg hp h1 hbad => ?_⟩
  · have hfall (status : LoaderStatus) := fallBack_powerOn status hload hby hoff hl
    have hunusable (status : LoaderStatus) : imageUnusable l status s = s.poweredFallback status :=
      (if_neg (by rw [hby]; decide)).trans (hfall status)
    have hexec : exec c s = .next (s.poweredFallback status) := by
      obtain ⟨b0, b1, b2, b3, b4, hp, rfl, rfl, h⟩ | ⟨b3, b4, area, crc, hp, hlen, hcrc, rfl, rfl⟩ |
        ⟨len, selector, rest, hp, h1, h, rfl, rfl⟩ := hcase
      · rw [exec_header_bad hload hp h, hunusable]
      · rw [exec_imageReadComplete hload hp hlen, if_neg hcrc, hunusable]
      · rw [exec_loaderRecordApply hload hp, applyRecord_refused h1 h, hfall]
    refine ⟨_, hexec, rfl, fallbackConfig_zero, rfl, fallbackConfig_other, replicate_get _, fallbackDirectory_five,
      fallbackDirectory_six, fallbackDirectory_below, fallbackStore_of_step (by decide) rfl, fallbackStore_of_step (by decide) rfl,
      fallbackStore_of_step (by decide) rfl, fallbackStore_of_step (by decide) rfl, fallbackStore_of_step (by decide) rfl,
      fallbackStore_of_step (by decide) rfl, fallbackStore_rest, replicate_get _, rfl, ?_, rfl, rfl, hpl, rfl, hl, rfl⟩
    show diff (diff 1#16 0#16) s.wake.suppressed = 1#16
    rw [hsup]
    rfl
  · let w := s.reinitFallback
    have hexec : exec .loaderRecordApply s = .next (fallBack l .fallbackRecord s) := by
      rw [exec_loaderRecordApply hload hp, applyRecord_refused h1 hbad]
    have hfall {u : State} := fallBack_reinit (u := u) hload hby hlost hdef hpg
    by_cases hon : s.recorded 0 = .on
    · have hlinked : recomputeLink w = w := recomputeLink_of_linkRight (linkRight_of_decide (s := w) rfl (by
        show s.dom.linkUp = decide (s.recorded 0 = .on)
        rw [hl, hon]
        rfl))
      rw [hfall ((congrArg (endService .ok) hlinked).trans (endService_up (s := w) .ok hserv hl hroom)) rfl rfl] at hexec
      exact ⟨_, hexec, rfl, rfl, fallbackConfig_zero, rfl, fallbackConfig_other, replicate_get _, fallbackDirectory_five,
        fallbackDirectory_six, fallbackDirectory_below, rfl, rfl, reinitFallback_windowTimer s, rfl, rfl, rfl, rfl, fun _ => ⟨hl, rfl⟩,
        fun hn => absurd hon hn⟩
    · have hdown : recomputeLink w = linkDown w := (recomputeLink_of_not_on (s := w) hon rfl).trans (if_pos hl)
      rw [hfall ((congrArg (endService .ok) hdown).trans (endService_down (s := linkDown w) .ok rfl)) rfl rfl] at hexec
      exact ⟨_, hexec, rfl, rfl, fallbackConfig_zero, rfl, fallbackConfig_other, replicate_get _, fallbackDirectory_five,
        fallbackDirectory_six, fallbackDirectory_below, rfl, rfl, reinitFallback_windowTimer s, rfl, rfl, rfl, rfl, fun hn => absurd hn hon,
        fun _ => ⟨rfl, rfl⟩⟩

end Sys2Proof.Machine
end
